-- ==== Sys2Proof/Word.lean ====
section
/-! DEFINITION. The widths of the block (spec/00_scope.md rule R8): 8-bit data registers, 16-bit pair views. -/

namespace Sys2Proof

/-- A data register's value, a command word, the packed flags byte (R8): 8 bits. -/
abbrev Byte := BitVec 8

/-- A composite pair view and the port's `data` input (R8, R70): 16 bits. -/
abbrev Word16 := BitVec 16

end Sys2Proof
end

