-- ==== Sys2Proof/Syntax.lean ====
section
/-! DEFINITION. The closed enumerations of the block (spec/00_scope.md R2, spec/10_state.md R20, R27), the
port operation's inputs (spec/30_encoding.md R70) and the instructions: one constructor of `Instr` for each row of
spec/opcode_table.json. -/

namespace Sys2Proof

/-- The seven 8-bit data registers (R20). -/
inductive Reg8 where
  | A | B | C | D | E | H | L
deriving DecidableEq, Repr

/-- The three 16-bit pair views (R24, R27); DE is named by the host port only. -/
inductive Pair where
  | BC | DE | HL
deriving DecidableEq, Repr

/-- The four flags: zero, subtract, half-carry, carry (R18, R28). -/
inductive Flag where
  | Z | N | H | C
deriving DecidableEq, Repr

/-- The source's twelve-member enumeration of instructions (R2, R73). -/
inductive Op where
  | add | addhl | adc | sub | sbc | and | or | xor | cp | inc | dec | ccf
deriving DecidableEq, Repr

/-- The source's nine-member enumeration of Arithmetic Targets: seven 8-bit registers, then BC and HL (R2, R74). -/
inductive Target where
  | reg (r : Reg8)
  | bc
  | hl
deriving DecidableEq, Repr

/-- An `(Instruction, ArithmeticTarget)` pair, what an EXEC operation's command word spells (R17, R72). Not every
pair is legal: `Command.wf` in WellFormed.lean says which are (R76). -/
structure Command where
  op     : Op
  target : Target
deriving DecidableEq, Repr

/-- The inputs of one port operation, sampled at a rising clock edge (R70). -/
structure PortInput where
  opKind : BitVec 3
  cmd    : Byte
  sel    : BitVec 3
  data   : Word16
  rst    : Bool
deriving DecidableEq, Repr

/-- The instructions: one constructor for each row of spec/opcode_table.json, sixteen of the EXEC kind and then the
four port operations (R71, R76). -/
inductive Instr where
  /-- `ADD r` (R131). -/
  | addR (r : Reg8)
  /-- `ADDHL HL` (R181). -/
  | addhlHL
  /-- `ADC r` (R136). -/
  | adcR (r : Reg8)
  /-- `SUB r` (R138). -/
  | subR (r : Reg8)
  /-- `SBC r` (R142). -/
  | sbcR (r : Reg8)
  /-- `AND r` (R145). -/
  | andR (r : Reg8)
  /-- `OR r` (R147). -/
  | orR (r : Reg8)
  /-- `XOR r` (R149). -/
  | xorR (r : Reg8)
  /-- `CP r` (R151). -/
  | cpR (r : Reg8)
  /-- `INC r` (R155). -/
  | incR (r : Reg8)
  /-- `INC BC` (R184). -/
  | incBC
  /-- `INC HL` (R184). -/
  | incHL
  /-- `DEC r` (R159). -/
  | decR (r : Reg8)
  /-- `DEC BC` (R187). -/
  | decBC
  /-- `DEC HL` (R187). -/
  | decHL
  /-- `CCF`, with its ignored 8-bit target (R161, R163). -/
  | ccfR (r : Reg8)
  /-- `IDLE` (R203). -/
  | idle
  /-- `SET8 r, v` (R200). -/
  | set8R (r : Reg8) (v : Byte)
  /-- `SET8 F, b` (R201). -/
  | set8F (b : Byte)
  /-- `SET16 rr, v` (R202). -/
  | set16 (p : Pair) (v : Word16)
deriving DecidableEq, Repr

end Sys2Proof
end

