-- ==== Sys2Proof/Config.lean ====
section
/-! DEFINITION. What is fixed for one built block: the four named parameters (spec/00_scope.md R9), and the free
values, which nothing constrains (spec/43_host_access.md R208, spec/70_reset_and_hazards.md R251). -/

namespace Sys2Proof

/-- `CARRY_MODE` (R9, R102): which add-overflow predicate decides every add carry. -/
inductive CarryMode where
  /-- The true unsigned overflow, the default. -/
  | unsigned
  /-- The reference's check over unbounded integers. -/
  | refInt
  /-- The reference's check with its subtraction wrapped at the operand width. -/
  | refWrap
deriving DecidableEq, Repr

/-- `HC16_MASK` (R9, R105): the mask of the 16-bit half-carry. -/
inductive Hc16Mask where
  /-- `0x0FFF`: the carry out of bit 11, the default. -/
  | x0FFF
  /-- `0x07FF`: the carry out of bit 10, the source's literal. -/
  | x07FF
deriving DecidableEq, Repr

/-- `INC8_CARRY` (R9, R155, R159): whether 8-bit INC and DEC write C. -/
inductive Inc8Carry where
  /-- C is written, the default. -/
  | overwrite
  /-- C is left as it was. -/
  | preserve
deriving DecidableEq, Repr

/-- `RESET_MODE` (R9, R251): what reset leaves in the registers and flags. -/
inductive ResetMode where
  /-- Every register and flag is 0, the default. -/
  | zero
  /-- Every register and flag is unspecified until it is first written. -/
  | unspecified
deriving DecidableEq, Repr

/-- The four named parameters (R9), fixed when the block is built (R39). -/
structure Params where
  carryMode : CarryMode
  hc16Mask  : Hc16Mask
  inc8Carry : Inc8Carry
  resetMode : ResetMode
deriving DecidableEq, Repr

/-- The default of each parameter (R9). -/
def Params.default : Params where
  carryMode := .unsigned
  hc16Mask  := .x0FFF
  inc8Carry := .overwrite
  resetMode := .zero

/-- Where a register or flag is read. Under `RESET_MODE = unspecified` a read of an unwritten register is "a draw
per read site" (spec/93_implementation_defined.md U4): reads at different sites need not agree. -/
inductive ReadSite where
  /-- An operation's left (or only) operand. -/
  | left
  /-- An operation's right operand, the `value` of its target. -/
  | right
  /-- The carry-in of ADC and SBC, and the carry that CCF inverts. -/
  | carry
  /-- The `k`-th read of the read ports in one cycle. -/
  | port (k : Nat)
deriving DecidableEq, Repr

/-- FREE VALUE (R251, U4; log entry 3): what a read of a register that nothing has written since a reset with
`RESET_MODE = unspecified` gives, by the cycle's number, the read site and the register. -/
opaque Config.regDraw : Nat → ReadSite → Reg8 → Byte

/-- FREE VALUE (R251, U4; log entry 3): the same for a flag. -/
opaque Config.flagDraw : Nat → ReadSite → Flag → Bool

/-- FREE VALUE (R208, U5; log entry 4): what the `k`-th read of the 16-bit read port with the reserved selector 3
gives in the cycle with the given number. -/
opaque Config.rd16Draw : Nat → Nat → Word16

end Sys2Proof
end

