-- ==== Sys2Proof/WellFormed.lean ====
section
/-! DEFINITION. Which `(Instruction, ArithmeticTarget)` pairs are legal (spec/30_encoding.md R75, R76). The operand
types of `Instr` already shut the illegal pairs out, as the source wants (spec/60_exceptions.md R222); the check that
can fail is the one on pairs, which `Instr.wf` applies to the pair an instruction stands for. -/

namespace Sys2Proof

/-- The target's width class (R75): "a static property of the target, never of the instruction". -/
def Target.is8 : Target → Bool
  | .reg _ => true
  | .bc | .hl => false

/-- The legal pairs (R76): ADDHL with HL only, INC and DEC with every target, every other instruction with the
8-bit targets. -/
def Command.wf (c : Command) : Bool :=
  match c.op with
  | .addhl => decide (c.target = .hl)
  | .inc | .dec => true
  | .add | .adc | .sub | .sbc | .and | .or | .xor | .cp | .ccf => c.target.is8

/-- The pair an EXEC instruction stands for (R76); `none` for the host operations, which carry no pair. -/
def Instr.command? : Instr → Option Command
  | .addR r => some ⟨.add, .reg r⟩
  | .addhlHL => some ⟨.addhl, .hl⟩
  | .adcR r => some ⟨.adc, .reg r⟩
  | .subR r => some ⟨.sub, .reg r⟩
  | .sbcR r => some ⟨.sbc, .reg r⟩
  | .andR r => some ⟨.and, .reg r⟩
  | .orR r => some ⟨.or, .reg r⟩
  | .xorR r => some ⟨.xor, .reg r⟩
  | .cpR r => some ⟨.cp, .reg r⟩
  | .incR r => some ⟨.inc, .reg r⟩
  | .incBC => some ⟨.inc, .bc⟩
  | .incHL => some ⟨.inc, .hl⟩
  | .decR r => some ⟨.dec, .reg r⟩
  | .decBC => some ⟨.dec, .bc⟩
  | .decHL => some ⟨.dec, .hl⟩
  | .ccfR r => some ⟨.ccf, .reg r⟩
  | .idle => none
  | .set8R _ _ => none
  | .set8F _ => none
  | .set16 _ _ => none

/-- An instruction is well formed when the pair it stands for, if any, is legal. -/
def Instr.wf (i : Instr) : Bool :=
  match i.command? with
  | some c => c.wf
  | none => true

end Sys2Proof
end

