-- ==== Sys2Proof/Decode.lean ====
section
/-! DEFINITION. Decoding one port operation, total on every input (spec/30_encoding.md R70 to R82), and the encoder
written from the same tables. What decodes to no instruction is one of the three errors of spec/60_exceptions.md
R226, by name. The layout of the command word is the spec's own (spec/92_eei_decisions.md D2, D3). -/

namespace Sys2Proof

/-- The three errors a port operation can raise (R226). -/
inductive PortError where
  /-- EXEC with a command word that is no legal pair (R222). -/
  | illegalCommand (cmd : Byte)
  /-- `op_kind` 4 to 7 (R223). -/
  | reservedOpKind (kind : BitVec 3)
  /-- SET16 with pair selector 3 (R225). -/
  | reservedPair (sel : BitVec 2)
deriving DecidableEq, Repr

/-! ## The command word -/

/-- The instruction codes, `cmd[7:4]` (R73); `none` for the reserved codes. -/
def opOfCode (c : BitVec 4) : Option Op :=
  match c.toNat with
  | 0x0 => some .add
  | 0x1 => some .addhl
  | 0x2 => some .adc
  | 0x3 => some .sub
  | 0x4 => some .sbc
  | 0x5 => some .and
  | 0x6 => some .or
  | 0x7 => some .xor
  | 0x8 => some .cp
  | 0x9 => some .inc
  | 0xA => some .dec
  | 0xB => some .ccf
  | _ => none

/-- The target codes, `cmd[3:0]` (R74); `none` for the reserved codes. -/
def targetOfCode (c : BitVec 4) : Option Target :=
  match c.toNat with
  | 0x0 => some (.reg .A)
  | 0x1 => some (.reg .B)
  | 0x2 => some (.reg .C)
  | 0x3 => some (.reg .D)
  | 0x4 => some (.reg .E)
  | 0x5 => some (.reg .H)
  | 0x6 => some (.reg .L)
  | 0x7 => some .bc
  | 0x8 => some .hl
  | _ => none

/-- The register of an 8-bit target (R75). -/
def Target.reg? : Target → Option Reg8
  | .reg r => some r
  | .bc | .hl => none

/-- The instruction a pair stands for (R76), `none` where the pair's path has no such row (R78). -/
def Command.instr? (c : Command) : Option Instr :=
  match c.op with
  | .add => c.target.reg?.map .addR
  | .addhl =>
    match c.target with
    | .hl => some .addhlHL
    | .reg _ | .bc => none
  | .adc => c.target.reg?.map .adcR
  | .sub => c.target.reg?.map .subR
  | .sbc => c.target.reg?.map .sbcR
  | .and => c.target.reg?.map .andR
  | .or => c.target.reg?.map .orR
  | .xor => c.target.reg?.map .xorR
  | .cp => c.target.reg?.map .cpR
  | .inc =>
    match c.target with
    | .reg r => some (.incR r)
    | .bc => some .incBC
    | .hl => some .incHL
  | .dec =>
    match c.target with
    | .reg r => some (.decR r)
    | .bc => some .decBC
    | .hl => some .decHL
  | .ccf => c.target.reg?.map .ccfR

/-- The pair a command word spells (R72 to R74); `none` where a code is reserved. -/
def commandOfWord (cmd : Byte) : Option Command :=
  match opOfCode (cmd.extractLsb' 4 4), targetOfCode (cmd.extractLsb' 0 4) with
  | some op, some t => some ⟨op, t⟩
  | _, none => none
  | none, _ => none

/-- The decoder of command words (R77), total on all 256; `none` is the spec's `Illegal` (R78). -/
def decodeCommand (cmd : Byte) : Option Instr :=
  (commandOfWord cmd).bind Command.instr?

/-! ## The host port's selectors -/

/-- The register selector (R80); `none` is code 7, the packed flags byte F. -/
def reg8OfSel (sel : BitVec 3) : Option Reg8 :=
  match sel.toNat with
  | 0 => some .A
  | 1 => some .B
  | 2 => some .C
  | 3 => some .D
  | 4 => some .E
  | 5 => some .H
  | 6 => some .L
  | _ => none

/-- The pair selector (R81); `none` is the reserved code 3. -/
def pairOfSel (sel : BitVec 2) : Option Pair :=
  match sel.toNat with
  | 0 => some .BC
  | 1 => some .DE
  | 2 => some .HL
  | _ => none

/-! ## The port operation -/

/-- Decodes the port operation of one cycle (R71): IDLE, EXEC, SET8, SET16, or one of the three errors. The `rst`
input is not looked at here: it wins over the operation (R252), see Machine/Cycle.lean. Inputs that the operation kind
does not use are ignored (R70, R82). -/
def decode (p : PortInput) : Except PortError Instr :=
  match p.opKind.toNat with
  | 0 => .ok .idle
  | 1 =>
    match decodeCommand p.cmd with
    | some i => .ok i
    | none => .error (.illegalCommand p.cmd)
  | 2 =>
    match reg8OfSel p.sel with
    | some r => .ok (.set8R r (p.data.extractLsb' 0 8))
    | none => .ok (.set8F (p.data.extractLsb' 0 8))
  | 3 =>
    match pairOfSel (p.sel.extractLsb' 0 2) with
    | some pr => .ok (.set16 pr p.data)
    | none => .error (.reservedPair (p.sel.extractLsb' 0 2))
  | _ => .error (.reservedOpKind p.opKind)

/-! ## The words of the opcode table -/

/-- The port operation a word of spec/opcode_table.json stands for (log entry 8). A row of the EXEC format gives the
eight bits of `cmd` in an EXEC operation. The table gives the PORT rows no bits; a word of more than eight bits is
read as the whole bundle in the model's own packing: `cmd` in bits 7 to 0, `op_kind` in bits 10 to 8, `sel` in bits 13
to 11, `data` in bits 31 to 16. -/
def tableInput (nbits w : Nat) : PortInput :=
  if nbits ≤ 8 then
    { opKind := 1#3, cmd := BitVec.ofNat 8 w, sel := 0#3, data := 0#16, rst := false }
  else
    { opKind := BitVec.ofNat 3 (w / 2 ^ 8), cmd := BitVec.ofNat 8 w, sel := BitVec.ofNat 3 (w / 2 ^ 11),
      data := BitVec.ofNat 16 (w / 2 ^ 16), rst := false }

/-- The instruction the decoder reads from a word of the opcode table. -/
def decodeTableWord (nbits w : Nat) : Option Instr :=
  match decode (tableInput nbits w) with
  | .ok i => some i
  | .error _ => none

/-! ## The encoder -/

/-- The instruction codes (R73). -/
def Op.code : Op → BitVec 4
  | .add => 0x0#4
  | .addhl => 0x1#4
  | .adc => 0x2#4
  | .sub => 0x3#4
  | .sbc => 0x4#4
  | .and => 0x5#4
  | .or => 0x6#4
  | .xor => 0x7#4
  | .cp => 0x8#4
  | .inc => 0x9#4
  | .dec => 0xA#4
  | .ccf => 0xB#4

/-- The target codes (R74). -/
def Target.code : Target → BitVec 4
  | .reg .A => 0x0#4
  | .reg .B => 0x1#4
  | .reg .C => 0x2#4
  | .reg .D => 0x3#4
  | .reg .E => 0x4#4
  | .reg .H => 0x5#4
  | .reg .L => 0x6#4
  | .bc => 0x7#4
  | .hl => 0x8#4

/-- The command word of a pair: `{op, t}` (R72). -/
def Command.word (c : Command) : Byte :=
  c.op.code ++ c.target.code

/-- The register selector's codes (R80). -/
def Reg8.sel : Reg8 → BitVec 3
  | .A => 0#3
  | .B => 1#3
  | .C => 2#3
  | .D => 3#3
  | .E => 4#3
  | .H => 5#3
  | .L => 6#3

/-- The pair selector's codes (R81), with `sel[2]` zero. -/
def Pair.sel : Pair → BitVec 3
  | .BC => 0#3
  | .DE => 1#3
  | .HL => 2#3

/-- An EXEC operation of a command word, its unused inputs zero (R70, R71). -/
def PortInput.exec (cmd : Byte) : PortInput :=
  { opKind := 1#3, cmd := cmd, sel := 0#3, data := 0#16, rst := false }

/-- A host operation, its unused inputs zero (R70, R71). -/
def PortInput.host (kind sel : BitVec 3) (data : Word16) : PortInput :=
  { opKind := kind, cmd := 0#8, sel := sel, data := data, rst := false }

/-- The port operation of an instruction, every input it does not use zero. -/
def encode : Instr → PortInput
  | .addR r => .exec (Command.word ⟨.add, .reg r⟩)
  | .addhlHL => .exec (Command.word ⟨.addhl, .hl⟩)
  | .adcR r => .exec (Command.word ⟨.adc, .reg r⟩)
  | .subR r => .exec (Command.word ⟨.sub, .reg r⟩)
  | .sbcR r => .exec (Command.word ⟨.sbc, .reg r⟩)
  | .andR r => .exec (Command.word ⟨.and, .reg r⟩)
  | .orR r => .exec (Command.word ⟨.or, .reg r⟩)
  | .xorR r => .exec (Command.word ⟨.xor, .reg r⟩)
  | .cpR r => .exec (Command.word ⟨.cp, .reg r⟩)
  | .incR r => .exec (Command.word ⟨.inc, .reg r⟩)
  | .incBC => .exec (Command.word ⟨.inc, .bc⟩)
  | .incHL => .exec (Command.word ⟨.inc, .hl⟩)
  | .decR r => .exec (Command.word ⟨.dec, .reg r⟩)
  | .decBC => .exec (Command.word ⟨.dec, .bc⟩)
  | .decHL => .exec (Command.word ⟨.dec, .hl⟩)
  | .ccfR r => .exec (Command.word ⟨.ccf, .reg r⟩)
  | .idle => .host 0#3 0#3 0#16
  | .set8R r v => .host 2#3 r.sel (v.setWidth 16)
  | .set8F b => .host 2#3 7#3 (b.setWidth 16)
  | .set16 p v => .host 3#3 p.sel v

/-- A port operation with every input that its kind does not use set to zero (R70, R82): what `encode` gives back
for an operation that decodes. `data[3:0]` of SET8 F stays, since it is part of the byte `b` (R201). -/
def PortInput.canonical (p : PortInput) : PortInput :=
  match p.opKind.toNat with
  | 0 => .host 0#3 0#3 0#16
  | 1 => .exec p.cmd
  | 2 => .host 2#3 p.sel ((p.data.extractLsb' 0 8).setWidth 16)
  | 3 => .host 3#3 ((p.sel.extractLsb' 0 2).setWidth 3) p.data
  | _ => p

end Sys2Proof
end

