-- ==== Sys2Proof/Machine/State.lean ====
section
/-! DEFINITION. The state of one block instance (spec/10_state.md R41): the register file, the four flags and the
error latch, and beside them the model's own fields, which are no storage of the block: the build-time parameters, the
marks that say which registers nothing has written since a reset with `RESET_MODE = unspecified`, the number of the
current clock cycle and the caller's pending port operations. -/

namespace Sys2Proof.Machine

/-- One value for each of the seven data registers (R20): the register file with `α = Byte`. -/
structure RegFile (α : Type) where
  a : α
  b : α
  c : α
  d : α
  e : α
  h : α
  l : α
deriving DecidableEq, Repr

/-- The Flags Register: four booleans and no other state (R28). -/
structure Flags where
  z : Bool
  n : Bool
  h : Bool
  c : Bool
deriving DecidableEq, Repr

/-- `ERR_CAUSE` (R38, R226): a two-bit field whose four codes are all assigned. -/
inductive ErrCause where
  /-- Code 0: no error since reset. -/
  | noError
  /-- Code 1, ILLEGAL_COMMAND. -/
  | illegalCommand
  /-- Code 2, RESERVED_OPKIND. -/
  | reservedOpKind
  /-- Code 3, RESERVED_PAIR. -/
  | reservedPair
deriving DecidableEq, Repr

/-- The sticky error latch `ERR` (R38). -/
structure ErrLatch where
  cause : ErrCause
  info  : Byte
deriving DecidableEq, Repr

/-- The state of one block instance. `regs`, `flags` and `err` are the spec's state vector (R41). -/
structure State where
  /-- A, B, C, D, E, H, L (R20). -/
  regs : RegFile Byte
  /-- F.Z, F.N, F.H, F.C (R28). -/
  flags : Flags
  /-- ERR_CAUSE and ERR_INFO (R38). -/
  err : ErrLatch
  /-- The model's own: the parameters this instance was built with (R9, R39). No step changes them. -/
  params : Params
  /-- The model's own: the registers that hold an unspecified value, because nothing has written them since a reset
  with `RESET_MODE = unspecified` (R251). A read of one is a draw. -/
  unwritten : RegFile Bool
  /-- The model's own: the same for the flags. -/
  unwrittenFlags : Flags
  /-- The model's own: the number of the current cycle, which the free values are applied to. -/
  cycle : Nat
  /-- The model's own: the port operations the caller will present, one in each cycle, the next one first (R58, R70,
  R266). -/
  inputs : List PortInput
deriving DecidableEq, Repr

/-- What a step that raises an error gives in the fault view of a run (R229). The machine's own step never faults: it
records the error in the latch and goes on, as the hardware does (R224, R227). Each is SAFE: the view stops where the
block continues. -/
inductive Fault where
  /-- Raised by `Machine.stepFaulting` for an EXEC operation with an illegal command word (R222). Safe. -/
  | illegalCommand (cmd : Byte)
  /-- Raised by `Machine.stepFaulting` for a port operation of kind 4 to 7 (R223). Safe. -/
  | reservedOpKind (kind : BitVec 3)
  /-- Raised by `Machine.stepFaulting` for a SET16 with pair selector 3 (R225). Safe. -/
  | reservedPair (sel : BitVec 2)
deriving DecidableEq, Repr

/-- No meaning of this model refuses (R261: the block "never refuses to take an operation"). -/
inductive Refusal where
  /-- Raised by an arm of `Machine.exec` for an instruction with no meaning yet; no arm of this model is one. Safe. -/
  | notModelled (mnemonic : String)
deriving DecidableEq, Repr

/-- The machine right after reset with the default parameters (R9, R251): every register and flag 0, the latch
cleared, nothing unspecified, and no port operation presented yet (R253). -/
def State.reset : State where
  regs := ⟨0#8, 0#8, 0#8, 0#8, 0#8, 0#8, 0#8⟩
  flags := ⟨false, false, false, false⟩
  err := ⟨.noError, 0#8⟩
  params := Params.default
  unwritten := ⟨false, false, false, false, false, false, false⟩
  unwrittenFlags := ⟨false, false, false, false⟩
  cycle := 0
  inputs := []

end Sys2Proof.Machine
end

