-- ==== Sys2Proof/Machine/Flags.lean ====
section
/-! DEFINITION. The flags packer (spec/10_state.md R29 to R32) and the ALU primitives, which compute a result with its
zero, half-carry and carry flags (spec/40_datapath.md R101 to R105). -/

namespace Sys2Proof.Machine

/-! ## The packed flags byte -/

/-- A flag as a byte with that flag's bit. -/
def flagBit (f : Bool) (bit : Nat) : Byte :=
  if f then 1#8 <<< bit else 0#8

/-- `pack` (R31): Z, N, H, C in bits 7, 6, 5, 4, and a zero lower nibble. -/
def pack (f : Flags) : Byte :=
  flagBit f.z 7 ||| flagBit f.n 6 ||| flagBit f.h 5 ||| flagBit f.c 4

/-- `unpack` (R32): the lower four bits are never interpreted. -/
def unpack (b : Byte) : Flags where
  z := b.getLsbD 7
  n := b.getLsbD 6
  h := b.getLsbD 5
  c := b.getLsbD 4

/-! ## The add-overflow predicates -/

/-- `ovf8` (R102), for each `CARRY_MODE`. -/
def ovf8 (m : CarryMode) (l r : Byte) : Bool :=
  match m with
  | .unsigned => decide (l.toNat + r.toNat > 255)
  | .refInt => decide ((l.toNat : Int) > 127 - (r.toNat : Int))
  | .refWrap => decide ((l.toNat : Int) > (127 - (r.toNat : Int)) % 256)

/-- `ovf16` (R102), for each `CARRY_MODE`. -/
def ovf16 (m : CarryMode) (l r : Word16) : Bool :=
  match m with
  | .unsigned => decide (l.toNat + r.toNat > 65535)
  | .refInt => decide ((l.toNat : Int) > 32767 - (r.toNat : Int))
  | .refWrap => decide ((l.toNat : Int) > (32767 - (r.toNat : Int)) % 65536)

/-! ## The primitives -/

/-- What a primitive returns: the wrapped result and its zero, half-carry and carry flags. -/
structure Alu (w : Nat) where
  res : BitVec w
  z   : Bool
  h   : Bool
  c   : Bool
deriving DecidableEq, Repr

/-- `add8` (R101). -/
def add8 (m : CarryMode) (l r : Byte) : Alu 8 where
  res := l + r
  z := decide (l + r = 0#8)
  h := decide ((l &&& 0xF#8).toNat + (r &&& 0xF#8).toNat > 0xF)
  c := ovf8 m l r

/-- `sub8` (R104). The borrow never depends on `CARRY_MODE` (R103). -/
def sub8 (l r : Byte) : Alu 8 where
  res := l - r
  z := decide (l - r = 0#8)
  h := decide ((l &&& 0xF#8).toNat < (r &&& 0xF#8).toNat)
  c := decide (r.toNat > l.toNat)

/-- The value of `HC16_MASK` (R9). -/
def hc16Value : Hc16Mask → Word16
  | .x0FFF => 0x0FFF#16
  | .x07FF => 0x07FF#16

/-- `add16` (R105). -/
def add16 (m : CarryMode) (mask : Hc16Mask) (l r : Word16) : Alu 16 where
  res := l + r
  z := decide (l + r = 0#16)
  h := decide ((l &&& hc16Value mask).toNat + (r &&& hc16Value mask).toNat > (hc16Value mask).toNat)
  c := ovf16 m l r

/-- The carry-in as a byte: the number 0 or 1 (R132). -/
def carryByte (cin : Bool) : Byte :=
  if cin then 1#8 else 0#8

/-- The adjusted operand of ADC and SBC (R134). -/
def adjusted (v : Byte) (cin : Bool) : Byte :=
  v + carryByte cin

/-- The pre-step carry of ADC and SBC (R135). -/
def preCarry (m : CarryMode) (v : Byte) (cin : Bool) : Bool :=
  ovf8 m v (carryByte cin)

/-- The inner add of ADC with the pre-step carry ORed into its carry (R133, R136). -/
def adc8 (m : CarryMode) (l v : Byte) (cin : Bool) : Alu 8 :=
  let inner := add8 m l (adjusted v cin)
  { inner with c := inner.c || preCarry m v cin }

/-- The inner subtract of SBC with the pre-step carry ORed into its borrow (R140, R142). -/
def sbc8 (m : CarryMode) (l v : Byte) (cin : Bool) : Alu 8 :=
  let inner := sub8 l (adjusted v cin)
  { inner with c := inner.c || preCarry m v cin }

/-- The flags an arithmetic operation writes: Z, H and C from the primitive, N as the instruction forces it (R107). -/
def Alu.flags {w : Nat} (o : Alu w) (n : Bool) : Flags :=
  ⟨o.z, n, o.h, o.c⟩

/-- The flags a logic operation writes: Z from the result, N and C 0, H as the instruction forces it (R145 to R149). -/
def logicFlags (res : Byte) (h : Bool) : Flags :=
  ⟨decide (res = 0#8), false, h, false⟩

end Sys2Proof.Machine
end

