-- ==== Sys2Proof/Machine/Operands.lean ====
section
/-! DEFINITION. The register file's accessors (spec/10_state.md R21 to R25) and the reads and writes of the flags.
Every read of a register or flag by an operation or a read port goes through here. A read names its site: where nothing
has written the register since a reset with `RESET_MODE = unspecified`, it is a draw (spec/70_reset_and_hazards.md
R251), otherwise it is the stored value. Every write ends the register's unspecified state. -/

namespace Sys2Proof

/-- The high register of a pair: the first-named one (R24). -/
def Pair.hi : Pair → Reg8
  | .BC => .B
  | .DE => .D
  | .HL => .H

/-- The low register of a pair (R24). -/
def Pair.lo : Pair → Reg8
  | .BC => .C
  | .DE => .E
  | .HL => .L

end Sys2Proof

namespace Sys2Proof.Machine

/-! ## One value for each register or flag -/

/-- Selects one of the seven (R23). -/
def RegFile.get {α : Type} (f : RegFile α) : Reg8 → α
  | .A => f.a
  | .B => f.b
  | .C => f.c
  | .D => f.d
  | .E => f.e
  | .H => f.h
  | .L => f.l

/-- Replaces one of the seven and changes nothing else (R21, R23). -/
def RegFile.set {α : Type} (f : RegFile α) (r : Reg8) (v : α) : RegFile α :=
  match r with
  | .A => { f with a := v }
  | .B => { f with b := v }
  | .C => { f with c := v }
  | .D => { f with d := v }
  | .E => { f with e := v }
  | .H => { f with h := v }
  | .L => { f with l := v }

/-- Selects one flag. -/
def Flags.get (f : Flags) : Flag → Bool
  | .Z => f.z
  | .N => f.n
  | .H => f.h
  | .C => f.c

/-! ## Registers -/

/-- `get8` (R23) at a read site: the stored value, or a draw where it is unspecified (R251). -/
def State.readReg (s : State) (site : ReadSite) (r : Reg8) : Byte :=
  if s.unwritten.get r then Config.regDraw s.cycle site r else s.regs.get r

/-- `set8` (R23). -/
def State.writeReg (s : State) (r : Reg8) (v : Byte) : State :=
  { s with regs := s.regs.set r v, unwritten := s.unwritten.set r false }

/-- The pair view's value: the first-named register is the high byte (R24, R53). -/
def State.readPair (s : State) (site : ReadSite) (p : Pair) : Word16 :=
  s.readReg site p.hi ++ s.readReg site p.lo

/-- `set16`: both halves in the same operation (R25). -/
def State.writePair (s : State) (p : Pair) (v : Word16) : State :=
  (s.writeReg p.hi (v.extractLsb' 8 8)).writeReg p.lo (v.extractLsb' 0 8)

/-! ## Flags -/

/-- One flag at a read site: the stored value, or a draw where it is unspecified (R251). -/
def State.readFlag (s : State) (site : ReadSite) (f : Flag) : Bool :=
  if s.unwrittenFlags.get f then Config.flagDraw s.cycle site f else s.flags.get f

/-- The carry-in of ADC and SBC, and the carry CCF inverts: F.C before the operation (R132, R163). -/
def State.carryIn (s : State) : Bool :=
  s.readFlag .carry .C

/-- Writes all four flags, the wholesale overwrite of R30. -/
def State.writeFlags (s : State) (f : Flags) : State :=
  { s with flags := f, unwrittenFlags := ⟨false, false, false, false⟩ }

/-- Writes Z, N and H and leaves C as it was: 8-bit INC and DEC with `INC8_CARRY = preserve` (R155, R159). -/
def State.writeFlagsKeepC (s : State) (f : Flags) : State :=
  { s with
    flags := ⟨f.z, f.n, f.h, s.flags.c⟩
    unwrittenFlags := ⟨false, false, false, s.unwrittenFlags.c⟩ }

/-- Writes N, H and C and leaves Z as it was: CCF (R163). -/
def State.writeFlagsKeepZ (s : State) (f : Flags) : State :=
  { s with
    flags := ⟨s.flags.z, f.n, f.h, f.c⟩
    unwrittenFlags := ⟨s.unwrittenFlags.z, false, false, false⟩ }

end Sys2Proof.Machine
end

