-- ==== Sys2Proof/Machine/Ops.lean ====
section
/-! DEFINITION. The operations the meanings share, the recording of an error (this block's only exception entry,
spec/60_exceptions.md R224), the synchronous reset (spec/70_reset_and_hazards.md R250 to R252) and the combinational
read ports (spec/43_host_access.md R204 to R208). The block has no memory (spec/20_memory.md R50), no program counter
and no return from an exception (spec/60_exceptions.md R231). -/

namespace Sys2Proof.Machine

/-! ## Results -/

/-- Writes a result to A and all four flags, as ADD, ADC, SUB, SBC, AND, OR and XOR do (R130). -/
def State.writeAcc (s : State) (res : Byte) (f : Flags) : State :=
  (s.writeReg .A res).writeFlags f

/-- Writes a result to the target of 8-bit INC or DEC, with the flags `INC8_CARRY` lets it write (R155, R157, R159). -/
def State.writeStepped (s : State) (r : Reg8) (res : Byte) (f : Flags) : State :=
  match s.params.inc8Carry with
  | .overwrite => (s.writeReg r res).writeFlags f
  | .preserve => (s.writeReg r res).writeFlagsKeepC f

/-! ## Errors -/

/-- `ERR_CAUSE`'s two-bit code (R38, R226). -/
def ErrCause.code : ErrCause → BitVec 2
  | .noError => 0#2
  | .illegalCommand => 1#2
  | .reservedOpKind => 2#2
  | .reservedPair => 3#2

/-- What the latch records for an error: its cause and its eight bits of information (R222, R223, R225, R226). -/
def latchOf : PortError → ErrLatch
  | .illegalCommand cmd => ⟨.illegalCommand, cmd⟩
  | .reservedOpKind kind => ⟨.reservedOpKind, kind.setWidth 8⟩
  | .reservedPair sel => ⟨.reservedPair, sel.setWidth 8⟩

/-- `raise` (R224): the first error after reset is recorded and a later one changes nothing; no register and no flag
changes, and the block goes on (R227). -/
def State.raiseError (s : State) (e : PortError) : State :=
  if s.err.cause = .noError then { s with err := latchOf e } else s

/-! ## Reset -/

/-- The marks a reset leaves on the registers: all of them under `RESET_MODE = unspecified` (R251). -/
def resetUnwritten : ResetMode → RegFile Bool
  | .zero => ⟨false, false, false, false, false, false, false⟩
  | .unspecified => ⟨true, true, true, true, true, true, true⟩

/-- The marks a reset leaves on the flags (R251). -/
def resetUnwrittenFlags : ResetMode → Flags
  | .zero => ⟨false, false, false, false⟩
  | .unspecified => ⟨true, true, true, true⟩

/-- What a clock edge with `rst = 1` does (R250, R251): every register and flag 0, or unspecified until written, and in
both modes the latch cleared. -/
def State.applyReset (s : State) : State :=
  { s with
    regs := State.reset.regs
    flags := State.reset.flags
    err := ⟨.noError, 0#8⟩
    unwritten := resetUnwritten s.params.resetMode
    unwrittenFlags := resetUnwrittenFlags s.params.resetMode }

/-! ## The read ports

Combinational and without side effect: they are functions of the state, which is the state after the last clock edge
(R263). `k` numbers the reads of one cycle; it matters only where the value read is a draw. -/

/-- The flags as the read port sees them, each one a draw where it is unspecified. -/
def State.portFlags (s : State) (k : Nat) : Flags :=
  ⟨s.readFlag (.port k) .Z, s.readFlag (.port k) .N, s.readFlag (.port k) .H, s.readFlag (.port k) .C⟩

/-- `rd8_data` (R204). -/
def State.rd8 (s : State) (k : Nat) (sel : BitVec 3) : Byte :=
  match reg8OfSel sel with
  | some r => s.readReg (.port k) r
  | none => pack (s.portFlags k)

/-- `rd16_data` (R207); selector 3 drives an unspecified value, possibly another on every read (R208). -/
def State.rd16 (s : State) (k : Nat) (sel : BitVec 2) : Word16 :=
  match pairOfSel sel with
  | some p => s.readPair (.port k) p
  | none => Config.rd16Draw s.cycle k

/-- `err_status[9:0] = {ERR_CAUSE, ERR_INFO}` (R206). -/
def State.errStatus (s : State) : BitVec 10 :=
  ErrCause.code s.err.cause ++ s.err.info

end Sys2Proof.Machine
end

