-- ==== Sys2Proof/Machine/Alu16.lean ====
section
/-! DEFINITION. The 16-bit path (spec/42_alu16.md): ADDHL HL, INC rr and DEC rr. INC and DEC of a pair touch no flag in
any parameter setting (R186). -/

namespace Sys2Proof.Machine

/-- The ADDHL datapath with a general operand (R182): adds `v` to HL and writes all four flags. -/
def State.addToHL (s : State) (v : Word16) : State :=
  let o := add16 s.params.carryMode s.params.hc16Mask (s.readPair .left .HL) v
  (s.writePair .HL o.res).writeFlags (o.flags false)

/-- Increments a pair, wrapping, and writes no flag (R184). -/
def State.incPair (s : State) (p : Pair) : State :=
  s.writePair p (s.readPair .left p + 1#16)

/-- Decrements a pair, wrapping, and writes no flag (R187). -/
def State.decPair (s : State) (p : Pair) : State :=
  s.writePair p (s.readPair .left p - 1#16)

/-- `ADDHL HL` (R181): HL is both operands. -/
def execAddhlHL (s : State) : Host.Outcome State Fault Refusal :=
  .next (s.addToHL (s.readPair .right .HL))

/-- `INC BC` (R184). -/
def execIncBC (s : State) : Host.Outcome State Fault Refusal :=
  .next (s.incPair .BC)

/-- `INC HL` (R184). -/
def execIncHL (s : State) : Host.Outcome State Fault Refusal :=
  .next (s.incPair .HL)

/-- `DEC BC` (R187). -/
def execDecBC (s : State) : Host.Outcome State Fault Refusal :=
  .next (s.decPair .BC)

/-- `DEC HL` (R187). -/
def execDecHL (s : State) : Host.Outcome State Fault Refusal :=
  .next (s.decPair .HL)

end Sys2Proof.Machine
end

