-- ==== Sys2Proof/Machine/Alu8.lean ====
section
/-! DEFINITION. The 8-bit path (spec/41_alu8.md): ADD, ADC, SUB, SBC, AND, OR, XOR, CP, INC r, DEC r and CCF. Every
operand is read from the state before the clock edge and every write is committed at the edge (R15, R260), so a
register that is both source and destination gives its old value (R264). No 8-bit instruction raises an error (R130). -/

namespace Sys2Proof.Machine

/-- `ADD r` (R131). -/
def execAddR (r : Reg8) (s : State) : Host.Outcome State Fault Refusal :=
  let o := add8 s.params.carryMode (s.readReg .left .A) (s.readReg .right r)
  .next (s.writeAcc o.res (o.flags false))

/-- `ADC r` (R136). -/
def execAdcR (r : Reg8) (s : State) : Host.Outcome State Fault Refusal :=
  let o := adc8 s.params.carryMode (s.readReg .left .A) (s.readReg .right r) s.carryIn
  .next (s.writeAcc o.res (o.flags false))

/-- `SUB r` (R138). -/
def execSubR (r : Reg8) (s : State) : Host.Outcome State Fault Refusal :=
  let o := sub8 (s.readReg .left .A) (s.readReg .right r)
  .next (s.writeAcc o.res (o.flags true))

/-- `SBC r` (R142). -/
def execSbcR (r : Reg8) (s : State) : Host.Outcome State Fault Refusal :=
  let o := sbc8 s.params.carryMode (s.readReg .left .A) (s.readReg .right r) s.carryIn
  .next (s.writeAcc o.res (o.flags true))

/-- `AND r` (R145): H is forced to 1, C to 0 (R146). -/
def execAndR (r : Reg8) (s : State) : Host.Outcome State Fault Refusal :=
  let res := s.readReg .left .A &&& s.readReg .right r
  .next (s.writeAcc res (logicFlags res true))

/-- `OR r` (R147). -/
def execOrR (r : Reg8) (s : State) : Host.Outcome State Fault Refusal :=
  let res := s.readReg .left .A ||| s.readReg .right r
  .next (s.writeAcc res (logicFlags res false))

/-- `XOR r` (R149). -/
def execXorR (r : Reg8) (s : State) : Host.Outcome State Fault Refusal :=
  let res := s.readReg .left .A ^^^ s.readReg .right r
  .next (s.writeAcc res (logicFlags res false))

/-- `CP r` (R151): the flags of SUB; the result is discarded. -/
def execCpR (r : Reg8) (s : State) : Host.Outcome State Fault Refusal :=
  .next (s.writeFlags ((sub8 (s.readReg .left .A) (s.readReg .right r)).flags true))

/-- `INC r` (R155): the half-carry is that of `value + 1` (R154). -/
def execIncR (r : Reg8) (s : State) : Host.Outcome State Fault Refusal :=
  let o := add8 s.params.carryMode (s.readReg .left r) 1#8
  .next (s.writeStepped r o.res (o.flags false))

/-- `DEC r` (R159): the half-carry is that of `value - 1` (R154). -/
def execDecR (r : Reg8) (s : State) : Host.Outcome State Fault Refusal :=
  let o := sub8 (s.readReg .left r) 1#8
  .next (s.writeStepped r o.res (o.flags true))

/-- `CCF` (R163): C is inverted, N and H are 0, Z is left as it was; the target selects nothing (R161). -/
def execCcfR (_r : Reg8) (s : State) : Host.Outcome State Fault Refusal :=
  .next (s.writeFlagsKeepZ ⟨false, false, false, !s.carryIn⟩)

end Sys2Proof.Machine
end

