-- ==== Sys2Proof/Machine/HostPort.lean ====
section
/-! DEFINITION. The host's port operations (spec/43_host_access.md R200 to R203). -/

namespace Sys2Proof.Machine

/-- `IDLE` (R203): no state changes. -/
def execIdle (s : State) : Host.Outcome State Fault Refusal :=
  .next s

/-- `SET8 r, v` (R200): writes the register, no flag. -/
def execSet8R (r : Reg8) (v : Byte) (s : State) : Host.Outcome State Fault Refusal :=
  .next (s.writeReg r v)

/-- `SET8 F, b` (R201): the flags from the byte's high nibble. -/
def execSet8F (b : Byte) (s : State) : Host.Outcome State Fault Refusal :=
  .next (s.writeFlags (unpack b))

/-- `SET16 rr, v` (R202): writes both halves of the pair, no flag. -/
def execSet16 (p : Pair) (v : Word16) (s : State) : Host.Outcome State Fault Refusal :=
  .next (s.writePair p v)

end Sys2Proof.Machine
end

