-- ==== Sys2Proof/Machine/Dispatch.lean ====
section
/-! DEFINITION. The dispatcher (spec/40_datapath.md R108): one arm for each constructor of `Instr`. -/

namespace Sys2Proof.Machine

/-- What one instruction does to the state. -/
def exec (i : Instr) (s : State) : Host.Outcome State Fault Refusal :=
  match i with
  | .addR r => Sys2Proof.Machine.execAddR r s
  | .addhlHL => Sys2Proof.Machine.execAddhlHL s
  | .adcR r => Sys2Proof.Machine.execAdcR r s
  | .subR r => Sys2Proof.Machine.execSubR r s
  | .sbcR r => Sys2Proof.Machine.execSbcR r s
  | .andR r => Sys2Proof.Machine.execAndR r s
  | .orR r => Sys2Proof.Machine.execOrR r s
  | .xorR r => Sys2Proof.Machine.execXorR r s
  | .cpR r => Sys2Proof.Machine.execCpR r s
  | .incR r => Sys2Proof.Machine.execIncR r s
  | .incBC => Sys2Proof.Machine.execIncBC s
  | .incHL => Sys2Proof.Machine.execIncHL s
  | .decR r => Sys2Proof.Machine.execDecR r s
  | .decBC => Sys2Proof.Machine.execDecBC s
  | .decHL => Sys2Proof.Machine.execDecHL s
  | .ccfR r => Sys2Proof.Machine.execCcfR r s
  | .idle => Sys2Proof.Machine.execIdle s
  | .set8R r v => Sys2Proof.Machine.execSet8R r v s
  | .set8F b => Sys2Proof.Machine.execSet8F b s
  | .set16 p v => Sys2Proof.Machine.execSet16 p v s

end Sys2Proof.Machine
end

