-- ==== Sys2Proof/Machine/Cycle.lean ====
section
/-! DEFINITION. One clock cycle of the block (spec/30_encoding.md R70, R71, spec/70_reset_and_hazards.md R250 to R253,
R260, R261): taking the next port operation, and what the clock edge does with it. -/

namespace Sys2Proof.Machine

/-- The state once the caller has presented its next port operation: the remaining ones are `rest`, and a new cycle
begins (the cycle's number serves the free values alone). -/
def State.consume (s : State) (rest : List PortInput) : State :=
  { s with inputs := rest, cycle := s.cycle + 1 }

/-- The rising clock edge with the inputs `p` (R70): a reset wins over the operation (R252); an operation that decodes
is executed; one that does not records its error and changes nothing else (R224). -/
def clockEdge (p : PortInput) (s : State) : Host.Outcome State Fault Refusal :=
  if p.rst then
    .next s.applyReset
  else
    match decode p with
    | .ok i => exec i s
    | .error e => .next (s.raiseError e)

/-- One step: the cycle of the caller's next port operation. Where the caller presents none, the block waits for the
next one (R253) and every register, flag and the latch hold their values (R240): the state stays as it is. -/
def nextCycle (s : State) : Host.Outcome State Fault Refusal :=
  match s.inputs with
  | [] => .next s
  | p :: rest => clockEdge p (s.consume rest)

/-- Puts a port operation in front of the caller's pending ones: the very next step takes it. -/
def State.presentNext (s : State) (p : PortInput) : State :=
  { s with inputs := p :: s.inputs }

end Sys2Proof.Machine
end

