-- ==== Sys2Proof/Machine/Step.lean ====
section
/-! DEFINITION. The step: one clock cycle. -/

namespace Sys2Proof.Machine

/-- One step of the block. -/
def step (s : State) : Host.Outcome State Fault Refusal :=
  nextCycle s

/-- The state whose very next step takes the port operation that a word of spec/opcode_table.json stands for. The block
fetches nothing (R61); the caller presents its operations at the port, so the word goes in front of the pending ones
(log entries 5 and 8). -/
def State.withFetchWord (s : State) (nbits w : Nat) : State :=
  s.presentNext (tableInput nbits w)

end Sys2Proof.Machine
end

