-- ==== Sys2Proof/Machine/FaultView.lean ====
section
/-! DEFINITION. The fault view of a run (spec/60_exceptions.md R229): the step that raises an error returns a fault
outcome. `Machine.step` is the hardware, which records the error and goes on (R224, R227); this view stops there. The
two are one machine on every cycle that raises no error. -/

namespace Sys2Proof.Machine

/-- The fault a step of this view gives for an error. -/
def faultOf : PortError → Fault
  | .illegalCommand cmd => .illegalCommand cmd
  | .reservedOpKind kind => .reservedOpKind kind
  | .reservedPair sel => .reservedPair sel

/-- The error a port operation raises, if any; a reset discards the operation, which then raises none (R252). -/
def errorOf (p : PortInput) : Option PortError :=
  if p.rst then
    none
  else
    match decode p with
    | .ok _ => none
    | .error e => some e

/-- One step in the fault view (R229). -/
def stepFaulting (s : State) : Host.Outcome State Fault Refusal :=
  match s.inputs with
  | [] => step s
  | p :: _ =>
    match errorOf p with
    | some e => .fault (faultOf e)
    | none => step s

/-- The machine whose step is the fault view. -/
def faultingCore : Host.Core where
  State := State
  Fault := Fault
  Refusal := Refusal
  step := stepFaulting
  reset := State.reset

end Sys2Proof.Machine
end

