-- ==== Sys2Proof/Safety.lean ====
section
/-! DEFINITION. What claims about the block are stated in: when a run ends well (spec/70_reset_and_hazards.md R266),
what an operation may change (frames), and the invariants of a state. -/

namespace Sys2Proof.Machine

/-- A run ends well if `ERR_CAUSE = 0` in its end state (R229, R266). -/
def State.endsWell (s : State) : Prop :=
  s.err.cause = .noError

/-! ## Frames -/

/-- Every data register outside `rs` is unchanged, in its value and in whether it is specified. -/
def SameRegsExcept (rs : List Reg8) (s t : State) : Prop :=
  ∀ r : Reg8, r ∉ rs → t.regs.get r = s.regs.get r ∧ t.unwritten.get r = s.unwritten.get r

/-- Every flag outside `fs` is unchanged, in its value and in whether it is specified. -/
def SameFlagsExcept (fs : List Flag) (s t : State) : Prop :=
  ∀ f : Flag, f ∉ fs → t.flags.get f = s.flags.get f ∧ t.unwrittenFlags.get f = s.unwrittenFlags.get f

/-- Nothing but the register file and the flags changed: the error latch, the parameters, the cycle's number and the
caller's pending operations are as they were. -/
def SameOutsideRegisterFile (s t : State) : Prop :=
  t.err = s.err ∧ t.params = s.params ∧ t.cycle = s.cycle ∧ t.inputs = s.inputs

/-- The frame of an operation that writes the registers `rs` and the flags `fs`. -/
def Frame (rs : List Reg8) (fs : List Flag) (s t : State) : Prop :=
  SameRegsExcept rs s t ∧ SameFlagsExcept fs s t ∧ SameOutsideRegisterFile s t

/-- The four flags. -/
def allFlags : List Flag :=
  [.Z, .N, .H, .C]

/-- Register `r` holds the specified value `v`. -/
def State.holds (s : State) (r : Reg8) (v : Byte) : Prop :=
  s.regs.get r = v ∧ s.unwritten.get r = false

/-- The four flags hold the specified values `f`. -/
def State.holdsFlags (s : State) (f : Flags) : Prop :=
  s.flags = f ∧ s.unwrittenFlags = ⟨false, false, false, false⟩

/-! ## Invariants -/

/-- The latch is one the block can hold (R38, R226): no information without an error, an illegal word with cause 1, a
reserved kind with cause 2, and 3 with cause 3. -/
def ErrLatch.consistent (e : ErrLatch) : Prop :=
  match e.cause with
  | .noError => e.info = 0#8
  | .illegalCommand => decodeCommand e.info = none
  | .reservedOpKind => 4 ≤ e.info.toNat ∧ e.info.toNat ≤ 7
  | .reservedPair => e.info = 3#8

/-- Every register and flag holds a specified value: no read of one is a draw. -/
def State.allSpecified (s : State) : Prop :=
  s.unwritten = resetUnwritten .zero ∧ s.unwrittenFlags = resetUnwrittenFlags .zero

/-- With `RESET_MODE = zero` nothing is ever unspecified (R251). -/
def State.zeroModeSpecified (s : State) : Prop :=
  s.params.resetMode = .zero → s.allSpecified

end Sys2Proof.Machine
end

