-- ==== Sys2Proof/Certificates/Slice0/Obligations.lean ====
section
/-! DEFINITION. The statements for the provers. They spell the spec's rules in numbers, not through the model's ALU
primitives. Reads go through the model's read of a register or flag at its site, so that each statement holds in every
state, under every parameter setting, and also where a register is unspecified (log entry 3). -/

namespace Sys2Proof.Claims

open Sys2Proof.Machine

/-! ## The vocabulary -/

/-- The carry of an 8-bit add of the numbers `l` and `r`, as R102 gives it for each `CARRY_MODE`. -/
def carry8 (m : CarryMode) (l r : Nat) : Prop :=
  match m with
  | .unsigned => l + r > 255
  | .refInt => l + r > 127
  | .refWrap => (l : Int) > (127 - (r : Int)) % 256

/-- The carry of a 16-bit add (R102). -/
def carry16 (m : CarryMode) (l r : Nat) : Prop :=
  match m with
  | .unsigned => l + r > 65535
  | .refInt => l + r > 32767
  | .refWrap => (l : Int) > (32767 - (r : Int)) % 65536

/-- `HC16_MASK + 1`: the half-carry is the carry out of the bits below it (R105). -/
def halfModulus : Hc16Mask → Nat
  | .x0FFF => 4096
  | .x07FF => 2048

/-- The target code of an 8-bit target as a byte, `0 | t` (R74). -/
def targetByte (r : Reg8) : Byte :=
  (Target.reg r).code.setWidth 8

/-- The carry-in, "read as the number 0 or 1" (R132). -/
def carryNumber (s : State) : Nat :=
  if s.carryIn then 1 else 0

/-- Register `r` holds the number `n`, specified. -/
def HoldsNat (t : State) (r : Reg8) (n : Nat) : Prop :=
  (t.regs.get r).toNat = n ∧ t.unwritten.get r = false

/-- Pair `p` holds the number `n`, specified: the first-named register is the high byte (R24). -/
def PairHolds (t : State) (p : Pair) (n : Nat) : Prop :=
  (t.regs.get p.hi).toNat * 256 + (t.regs.get p.lo).toNat = n ∧
    t.unwritten.get p.hi = false ∧ t.unwritten.get p.lo = false

/-- Z, N, H and C are set exactly as the four conditions say, and all four are specified. -/
def FlagsAre (t : State) (z n h c : Prop) : Prop :=
  (t.flags.z = true ↔ z) ∧ (t.flags.n = true ↔ n) ∧ (t.flags.h = true ↔ h) ∧ (t.flags.c = true ↔ c) ∧
    t.unwrittenFlags = ⟨false, false, false, false⟩

/-- The flags of 8-bit INC and DEC with their frame: Z, N and H as the conditions say; C too with
`INC8_CARRY = overwrite`, and left as it was, value and specifiedness, with `preserve` (R155, R159). -/
def SteppedFlags (s t : State) (r : Reg8) (z n h c : Prop) : Prop :=
  match s.params.inc8Carry with
  | .overwrite => FlagsAre t z n h c ∧ Frame [r] allFlags s t
  | .preserve =>
    (t.flags.z = true ↔ z) ∧ (t.flags.n = true ↔ n) ∧ (t.flags.h = true ↔ h) ∧
      t.unwrittenFlags.z = false ∧ t.unwrittenFlags.n = false ∧ t.unwrittenFlags.h = false ∧
      Frame [r] [.Z, .N, .H] s t

/-- One instruction and then another. -/
def execThen (i j : Instr) (s : State) : Host.Outcome State Fault Refusal :=
  match exec i s with
  | .next t => exec j t
  | .fault f => .fault f
  | .refused r => .refused r

/-- The state after a cycle that raises an error (R224): the latch is written only if it holds none. -/
def recorded (s : State) (rest : List PortInput) (cause : ErrCause) (info : Byte) : State :=
  if s.err.cause = .noError then { s.consume rest with err := ⟨cause, info⟩ } else s.consume rest

/-- The registers each instruction writes (R22, R130, R184, R187, R200, R202). -/
def regsWritten : Instr → List Reg8
  | .addR _ | .adcR _ | .subR _ | .sbcR _ | .andR _ | .orR _ | .xorR _ => [.A]
  | .cpR _ | .ccfR _ | .idle | .set8F _ => []
  | .incR r | .decR r | .set8R r _ => [r]
  | .addhlHL | .incHL | .decHL => [.H, .L]
  | .incBC | .decBC => [.B, .C]
  | .set16 p _ => [p.hi, p.lo]

/-- The flags each instruction writes (R35). -/
def flagsWritten (m : Inc8Carry) : Instr → List Flag
  | .addR _ | .adcR _ | .subR _ | .sbcR _ | .andR _ | .orR _ | .xorR _ | .cpR _ | .addhlHL | .set8F _ =>
    [.Z, .N, .H, .C]
  | .incR _ | .decR _ =>
    match m with
    | .overwrite => [.Z, .N, .H, .C]
    | .preserve => [.Z, .N, .H]
  | .ccfR _ => [.N, .H, .C]
  | .incBC | .incHL | .decBC | .decHL | .idle | .set8R _ _ | .set16 _ _ => []

/-- A state with other values, and other marks, of Z, N and H. -/
def withZNH (s : State) (f u : Flags) : State :=
  { s with
    flags := ⟨f.z, f.n, f.h, s.flags.c⟩
    unwrittenFlags := ⟨u.z, u.n, u.h, s.unwrittenFlags.c⟩ }

/-- No operation the caller will present is a reset cycle. -/
def NoReset (s : State) : Prop :=
  ∀ p ∈ s.inputs, p.rst = false

end Sys2Proof.Claims

open Sys2Proof Sys2Proof.Machine Sys2Proof.Claims

/-! ## Encoding -/

/-- Decoding the encoding of a well-formed instruction gives it back, every operand at every value (R71 to R74, R76,
R80 to R82). -/
def Obligations.DecodeEncodeRoundTrip : Prop :=
  ∀ i : Instr, i.wf = true → decode (encode i) = .ok i

/-- An operation that decodes is the encoding of its instruction on every input its kind uses: no used bit is dropped
(R70, R82). -/
def Obligations.EncodeOfDecodedIsCanonical : Prop :=
  ∀ (p : PortInput) (i : Instr), decode p = .ok i → encode i = p.canonical

/-- R77 and R78: a word is illegal exactly in the five classes of R78, and 82 words are legal (R76). -/
def Obligations.IllegalWordsAreTheFiveClasses : Prop :=
  (∀ op t : BitVec 4, decodeCommand (op ++ t) = none ↔
    ((op = 0x0#4 ∨ op = 0x2#4 ∨ op = 0x3#4 ∨ op = 0x4#4 ∨ op = 0x5#4 ∨ op = 0x6#4 ∨ op = 0x7#4 ∨ op = 0x8#4 ∨
        op = 0xB#4) ∧ (t = 0x7#4 ∨ t = 0x8#4)) ∨
    (op = 0x1#4 ∧ t.toNat ≤ 6) ∨
    (op = 0x1#4 ∧ t = 0x7#4) ∨
    (9 ≤ t.toNat) ∨
    (12 ≤ op.toNat ∧ t.toNat ≤ 8)) ∧
  ((List.range 256).filter fun w => (decodeCommand (BitVec.ofNat 8 w)).isSome).length = 82

/-- A few words of R76 and port operations of R71, written out from the spec's tables. -/
def Obligations.WrittenWordsDecode : Prop :=
  decodeTableWord 8 0x01 = some (.addR .B) ∧ decodeTableWord 8 0x18 = some .addhlHL ∧
  decodeTableWord 8 0x24 = some (.adcR .E) ∧ decodeTableWord 8 0x76 = some (.xorR .L) ∧
  decodeTableWord 8 0x97 = some .incBC ∧ decodeTableWord 8 0xA3 = some (.decR .D) ∧
  decodeTableWord 8 0xB6 = some (.ccfR .L) ∧ decodeTableWord 8 0x17 = none ∧
  decode ⟨3#3, 0#8, 6#3, 0x0100#16, false⟩ = .ok (.set16 .HL 0x0100#16) ∧
  decode ⟨2#3, 0#8, 7#3, 0x1234#16, false⟩ = .ok (.set8F 0x34#8)

/-! ## The step -/

/-- The operation in front of the caller's pending ones is taken and executed; taking it moves on to the remaining
ones and to the next cycle (R70, R108, R260). -/
def Obligations.StepExecutesTheDecodedInstruction : Prop :=
  ∀ (s : State) (p : PortInput) (rest : List PortInput) (i : Instr),
    s.inputs = p :: rest → p.rst = false → decode p = .ok i →
      step s = exec i { s with inputs := rest, cycle := s.cycle + 1 }

/-- With no operation presented a step holds the state (log entry 5; R240, R253). -/
def Obligations.StepWithoutOperationHolds : Prop :=
  ∀ s : State, s.inputs = [] → step s = .next s

/-- R261: exactly one operation is taken in each cycle, and it completes in that cycle: no stall, no refusal. Where
`rst = 1`, of which R261 does not speak, that the cycle takes and discards its operation is R252 with the model's own
choice (log entry 9); the list of operations and the cycle's number are the model's fields (log entries 5 and 3). -/
def Obligations.EveryOperationCompletesInItsCycle : Prop :=
  ∀ (s : State) (p : PortInput) (rest : List PortInput), s.inputs = p :: rest →
    ∃ t, step s = .next t ∧ t.inputs = rest ∧ t.cycle = s.cycle + 1

/-- R58 and R262: an operation sees the effects of the one in the cycle before; two dependent operations need no gap. -/
def Obligations.BackToBackOperations : Prop :=
  ∀ (s : State) (p q : PortInput) (rest : List PortInput) (i j : Instr),
    s.inputs = p :: q :: rest → p.rst = false → q.rst = false → decode p = .ok i → decode q = .ok j →
      ∃ t u, exec i { s with inputs := q :: rest, cycle := s.cycle + 1 } = .next t ∧
        exec j { t with inputs := rest, cycle := s.cycle + 2 } = .next u ∧
        Host.Core.run core 2 s = .next u

/-- R250 to R252: a cycle with `rst = 1` resets, whatever its operation. Both modes clear the latch; `zero` gives every
register and flag 0, and under `unspecified` every read of one is a draw until it is written. That such a read is the
free value of its cycle, site and register is the model's choice (log entry 3), and so is what a reset cycle keeps of the
model's own fields (log entry 9). -/
def Obligations.ResetWinsAndGivesTheResetValues : Prop :=
  ∀ (s : State) (p : PortInput) (rest : List PortInput), s.inputs = p :: rest → p.rst = true →
    ∃ t, step s = .next t ∧ t.err = ⟨.noError, 0#8⟩ ∧ t.params = s.params ∧ t.inputs = rest ∧
      (s.params.resetMode = .zero →
        (∀ r, HoldsNat t r 0) ∧ FlagsAre t False False False False) ∧
      (s.params.resetMode = .unspecified →
        (∀ site r, t.readReg site r = Config.regDraw t.cycle site r) ∧
        (∀ site f, t.readFlag site f = Config.flagDraw t.cycle site f))

/-- R42, R9: the state right after reset with the default parameters. -/
def Obligations.ResetStateValues : Prop :=
  (∀ r, HoldsNat State.reset r 0) ∧ FlagsAre State.reset False False False False ∧
    State.reset.err = ⟨.noError, 0#8⟩ ∧ State.reset.params = ⟨.unsigned, .x0FFF, .overwrite, .zero⟩ ∧
    State.reset.errStatus = 0#10

/-! ## The 8-bit path -/

/-- R131: ADD. -/
def Obligations.AddResult : Prop :=
  ∀ (r : Reg8) (s : State),
    decodeCommand (0x00#8 ||| targetByte r) = some (.addR r) ∧
    ∃ t, exec (.addR r) s = .next t ∧
      HoldsNat t .A (((s.readReg .left .A).toNat + (s.readReg .right r).toNat) % 256) ∧
      FlagsAre t
        (((s.readReg .left .A).toNat + (s.readReg .right r).toNat) % 256 = 0)
        False
        ((s.readReg .left .A).toNat % 16 + (s.readReg .right r).toNat % 16 > 15)
        (carry8 s.params.carryMode (s.readReg .left .A).toNat (s.readReg .right r).toNat) ∧
      Frame [.A] allFlags s t

/-- R136: ADC, in its two steps. -/
def Obligations.AdcResult : Prop :=
  ∀ (r : Reg8) (s : State),
    decodeCommand (0x20#8 ||| targetByte r) = some (.adcR r) ∧
    ∀ l v v2 : Nat, l = (s.readReg .left .A).toNat → v = (s.readReg .right r).toNat →
      v2 = (v + carryNumber s) % 256 →
      ∃ t, exec (.adcR r) s = .next t ∧ HoldsNat t .A ((l + v2) % 256) ∧
        FlagsAre t ((l + v2) % 256 = 0) False (l % 16 + v2 % 16 > 15)
          (carry8 s.params.carryMode l v2 ∨ carry8 s.params.carryMode v (carryNumber s)) ∧
        Frame [.A] allFlags s t

/-- R138: SUB. -/
def Obligations.SubResult : Prop :=
  ∀ (r : Reg8) (s : State),
    decodeCommand (0x30#8 ||| targetByte r) = some (.subR r) ∧
    ∀ l v : Nat, l = (s.readReg .left .A).toNat → v = (s.readReg .right r).toNat →
      ∃ t, exec (.subR r) s = .next t ∧ HoldsNat t .A ((l + 256 - v) % 256) ∧
        FlagsAre t ((l + 256 - v) % 256 = 0) True (l % 16 < v % 16) (v > l) ∧
        Frame [.A] allFlags s t

/-- R142: SBC, in its two steps. -/
def Obligations.SbcResult : Prop :=
  ∀ (r : Reg8) (s : State),
    decodeCommand (0x40#8 ||| targetByte r) = some (.sbcR r) ∧
    ∀ l v v2 : Nat, l = (s.readReg .left .A).toNat → v = (s.readReg .right r).toNat →
      v2 = (v + carryNumber s) % 256 →
      ∃ t, exec (.sbcR r) s = .next t ∧ HoldsNat t .A ((l + 256 - v2) % 256) ∧
        FlagsAre t ((l + 256 - v2) % 256 = 0) True (l % 16 < v2 % 16)
          (v2 > l ∨ carry8 s.params.carryMode v (carryNumber s)) ∧
        Frame [.A] allFlags s t

/-- R145 and R146: AND forces N = 0, H = 1 and C = 0. -/
def Obligations.AndResult : Prop :=
  ∀ (r : Reg8) (s : State),
    decodeCommand (0x50#8 ||| targetByte r) = some (.andR r) ∧
    ∃ t, exec (.andR r) s = .next t ∧ t.holds .A (s.readReg .left .A &&& s.readReg .right r) ∧
      FlagsAre t (s.readReg .left .A &&& s.readReg .right r = 0#8) False True False ∧
      Frame [.A] allFlags s t

/-- R147 and R149: OR and XOR force N, H and C to 0. -/
def Obligations.OrAndXorResult : Prop :=
  ∀ (r : Reg8) (s : State),
    (decodeCommand (0x60#8 ||| targetByte r) = some (.orR r) ∧
      ∃ t, exec (.orR r) s = .next t ∧ t.holds .A (s.readReg .left .A ||| s.readReg .right r) ∧
        FlagsAre t (s.readReg .left .A ||| s.readReg .right r = 0#8) False False False ∧
        Frame [.A] allFlags s t) ∧
    (decodeCommand (0x70#8 ||| targetByte r) = some (.xorR r) ∧
      ∃ t, exec (.xorR r) s = .next t ∧ t.holds .A (s.readReg .left .A ^^^ s.readReg .right r) ∧
        FlagsAre t (s.readReg .left .A ^^^ s.readReg .right r = 0#8) False False False ∧
        Frame [.A] allFlags s t)

/-- R151: CP writes the flags of a subtraction and no register. -/
def Obligations.CpResult : Prop :=
  ∀ (r : Reg8) (s : State),
    decodeCommand (0x80#8 ||| targetByte r) = some (.cpR r) ∧
    ∀ l v : Nat, l = (s.readReg .left .A).toNat → v = (s.readReg .right r).toNat →
      ∃ t, exec (.cpR r) s = .next t ∧
        FlagsAre t ((l + 256 - v) % 256 = 0) True (l % 16 < v % 16) (v > l) ∧
        Frame [] allFlags s t

/-- R155: 8-bit INC, with `INC8_CARRY` and every `CARRY_MODE`. -/
def Obligations.IncResult : Prop :=
  ∀ (r : Reg8) (s : State),
    decodeCommand (0x90#8 ||| targetByte r) = some (.incR r) ∧
    ∀ v : Nat, v = (s.readReg .left r).toNat →
      ∃ t, exec (.incR r) s = .next t ∧ HoldsNat t r ((v + 1) % 256) ∧
        SteppedFlags s t r ((v + 1) % 256 = 0) False (v % 16 + 1 > 15) (carry8 s.params.carryMode v 1)

/-- R159: 8-bit DEC, with `INC8_CARRY`. -/
def Obligations.DecResult : Prop :=
  ∀ (r : Reg8) (s : State),
    decodeCommand (0xA0#8 ||| targetByte r) = some (.decR r) ∧
    ∀ v : Nat, v = (s.readReg .left r).toNat →
      ∃ t, exec (.decR r) s = .next t ∧ HoldsNat t r ((v + 255) % 256) ∧
        SteppedFlags s t r ((v + 255) % 256 = 0) True (v % 16 < 1) (v = 0)

/-- R163 and R161: CCF inverts C, clears N and H, leaves Z, and its target selects nothing. -/
def Obligations.CcfResult : Prop :=
  ∀ (r : Reg8) (s : State),
    decodeCommand (0xB0#8 ||| targetByte r) = some (.ccfR r) ∧
    ∃ t, exec (.ccfR r) s = .next t ∧ (∀ q, exec (.ccfR q) s = .next t) ∧
      t.flags.c = !s.carryIn ∧ t.flags.n = false ∧ t.flags.h = false ∧
      t.unwrittenFlags.c = false ∧ t.unwrittenFlags.n = false ∧ t.unwrittenFlags.h = false ∧
      Frame [] [.N, .H, .C] s t

/-! ## The 16-bit path -/

/-- R181: ADDHL HL, with both masks and every `CARRY_MODE`; 0x18 is its only word. -/
def Obligations.AddhlResult : Prop :=
  (∀ cmd : Byte, decodeCommand cmd = some .addhlHL ↔ cmd = 0x18#8) ∧
  ∀ (s : State) (l v m : Nat), l = (s.readPair .left .HL).toNat → v = (s.readPair .right .HL).toNat →
    m = halfModulus s.params.hc16Mask →
    ∃ t, exec .addhlHL s = .next t ∧ PairHolds t .HL ((l + v) % 65536) ∧
      FlagsAre t ((l + v) % 65536 = 0) False (l % m + v % m > m - 1) (carry16 s.params.carryMode l v) ∧
      Frame [.H, .L] allFlags s t

/-- R184 and R187: INC and DEC of BC and HL wrap modulo 65536 and touch no flag. -/
def Obligations.IncDecPairResult : Prop :=
  (decodeCommand 0x97#8 = some .incBC ∧ decodeCommand 0x98#8 = some .incHL ∧
    decodeCommand 0xA7#8 = some .decBC ∧ decodeCommand 0xA8#8 = some .decHL) ∧
  ∀ s : State,
    (∃ t, exec .incBC s = .next t ∧ PairHolds t .BC (((s.readPair .left .BC).toNat + 1) % 65536) ∧
      Frame [.B, .C] [] s t) ∧
    (∃ t, exec .incHL s = .next t ∧ PairHolds t .HL (((s.readPair .left .HL).toNat + 1) % 65536) ∧
      Frame [.H, .L] [] s t) ∧
    (∃ t, exec .decBC s = .next t ∧ PairHolds t .BC (((s.readPair .left .BC).toNat + 65535) % 65536) ∧
      Frame [.B, .C] [] s t) ∧
    (∃ t, exec .decHL s = .next t ∧ PairHolds t .HL (((s.readPair .left .HL).toNat + 65535) % 65536) ∧
      Frame [.H, .L] [] s t)

/-! ## The host port -/

/-- R203: IDLE changes nothing and ignores every other input. -/
def Obligations.IdleChangesNothing : Prop :=
  (∀ p : PortInput, p.opKind = 0#3 → decode p = .ok .idle) ∧ ∀ s : State, exec .idle s = .next s

/-- R200: SET8 r, v. -/
def Obligations.Set8Result : Prop :=
  (∀ (p : PortInput) (r : Reg8), p.opKind = 2#3 → p.sel = r.sel →
    decode p = .ok (.set8R r (p.data.extractLsb' 0 8))) ∧
  ∀ (r : Reg8) (v : Byte) (s : State),
    ∃ t, exec (.set8R r v) s = .next t ∧ t.holds r v ∧ Frame [r] [] s t

/-- R201: SET8 F, b: the flags are bits 7 to 4 of the byte, and bits 3 to 0 are ignored. -/
def Obligations.Set8FlagsResult : Prop :=
  (∀ p : PortInput, p.opKind = 2#3 → p.sel = 7#3 → decode p = .ok (.set8F (p.data.extractLsb' 0 8))) ∧
  ∀ (b : Byte) (s : State),
    ∃ t, exec (.set8F b) s = .next t ∧
      FlagsAre t (b.toNat / 128 % 2 = 1) (b.toNat / 64 % 2 = 1) (b.toNat / 32 % 2 = 1) (b.toNat / 16 % 2 = 1) ∧
      Frame [] allFlags s t

/-- R202 and R225: SET16 rr, v. `sel[2]` is ignored; pair selector 3 is an error, whose cycle records it (if it is the
first since reset) and writes nothing else. -/
def Obligations.Set16Result : Prop :=
  (∀ (p : PortInput) (pr : Pair), p.opKind = 3#3 → p.sel.extractLsb' 0 2 = pr.sel.setWidth 2 →
    decode p = .ok (.set16 pr p.data)) ∧
  (∀ p : PortInput, p.opKind = 3#3 → p.sel.extractLsb' 0 2 = 3#2 → decode p = .error (.reservedPair 3#2)) ∧
  (∀ (s : State) (p : PortInput) (rest : List PortInput), s.inputs = p :: rest → p.rst = false → p.opKind = 3#3 →
    p.sel.extractLsb' 0 2 = 3#2 →
    ∃ t, step s = .next t ∧ t.regs = s.regs ∧ t.unwritten = s.unwritten ∧ t.flags = s.flags ∧
      t.unwrittenFlags = s.unwrittenFlags ∧ t.params = s.params ∧ t.inputs = rest ∧
      t.err = if s.err.cause = .noError then ⟨.reservedPair, 0x03#8⟩ else s.err) ∧
  ∀ (pr : Pair) (v : Word16) (s : State),
    ∃ t, exec (.set16 pr v) s = .next t ∧ PairHolds t pr v.toNat ∧
      t.holds pr.hi (v.extractLsb' 8 8) ∧ t.holds pr.lo (v.extractLsb' 0 8) ∧
      Frame [pr.hi, pr.lo] [] s t

/-- R209: in every state the pair read is the high register's read and then the low register's. -/
def Obligations.ReadPortsAgree : Prop :=
  ∀ (s : State) (k : Nat),
    s.rd16 k 0#2 = s.rd8 k 1#3 ++ s.rd8 k 2#3 ∧
    s.rd16 k 1#2 = s.rd8 k 3#3 ++ s.rd8 k 4#3 ∧
    s.rd16 k 2#2 = s.rd8 k 5#3 ++ s.rd8 k 6#3

/-- R23, R24, R28, R132: an operand read, at whatever site, gives the stored register, pair half, flag or carry, where
that register or flag is specified. The other statements are spelled through these reads; this one ties them to the
fields. The marks and the sites are the model's (log entry 3). -/
def Obligations.OperandReadsGiveTheStoredState : Prop :=
  (∀ (s : State) (site : ReadSite),
    (s.unwritten.a = false → s.readReg site .A = s.regs.a) ∧
    (s.unwritten.b = false → s.readReg site .B = s.regs.b) ∧
    (s.unwritten.c = false → s.readReg site .C = s.regs.c) ∧
    (s.unwritten.d = false → s.readReg site .D = s.regs.d) ∧
    (s.unwritten.e = false → s.readReg site .E = s.regs.e) ∧
    (s.unwritten.h = false → s.readReg site .H = s.regs.h) ∧
    (s.unwritten.l = false → s.readReg site .L = s.regs.l) ∧
    (s.unwrittenFlags.z = false → s.readFlag site .Z = s.flags.z) ∧
    (s.unwrittenFlags.n = false → s.readFlag site .N = s.flags.n) ∧
    (s.unwrittenFlags.h = false → s.readFlag site .H = s.flags.h) ∧
    (s.unwrittenFlags.c = false → s.readFlag site .C = s.flags.c)) ∧
  (∀ (s : State) (site : ReadSite) (r : Reg8), s.unwritten.get r = false → s.readReg site r = s.regs.get r) ∧
  (∀ (s : State) (site : ReadSite) (f : Flag), s.unwrittenFlags.get f = false → s.readFlag site f = s.flags.get f) ∧
  (∀ s : State, s.unwrittenFlags.c = false → s.carryIn = s.flags.c) ∧
  (∀ (s : State) (site : ReadSite),
    (s.unwritten.b = false → (s.readPair site .BC).extractLsb' 8 8 = s.regs.b) ∧
    (s.unwritten.c = false → (s.readPair site .BC).extractLsb' 0 8 = s.regs.c) ∧
    (s.unwritten.d = false → (s.readPair site .DE).extractLsb' 8 8 = s.regs.d) ∧
    (s.unwritten.e = false → (s.readPair site .DE).extractLsb' 0 8 = s.regs.e) ∧
    (s.unwritten.h = false → (s.readPair site .HL).extractLsb' 8 8 = s.regs.h) ∧
    (s.unwritten.l = false → (s.readPair site .HL).extractLsb' 0 8 = s.regs.l))

/-- R204, R207 and R251: each read port shows a register, a flag or a pair's half where that one alone is specified,
whatever the others are; bits 3 to 0 of the packed flags are always 0 (R29). The marks are the model's (log entry 3). -/
def Obligations.ReadPortsShowTheStoredState : Prop :=
  ∀ (s : State) (k : Nat),
    (s.unwritten.a = false → s.rd8 k 0#3 = s.regs.a) ∧
    (s.unwritten.b = false → s.rd8 k 1#3 = s.regs.b) ∧
    (s.unwritten.c = false → s.rd8 k 2#3 = s.regs.c) ∧
    (s.unwritten.d = false → s.rd8 k 3#3 = s.regs.d) ∧
    (s.unwritten.e = false → s.rd8 k 4#3 = s.regs.e) ∧
    (s.unwritten.h = false → s.rd8 k 5#3 = s.regs.h) ∧
    (s.unwritten.l = false → s.rd8 k 6#3 = s.regs.l) ∧
    (s.unwrittenFlags.z = false → (s.rd8 k 7#3).getLsbD 7 = s.flags.z) ∧
    (s.unwrittenFlags.n = false → (s.rd8 k 7#3).getLsbD 6 = s.flags.n) ∧
    (s.unwrittenFlags.h = false → (s.rd8 k 7#3).getLsbD 5 = s.flags.h) ∧
    (s.unwrittenFlags.c = false → (s.rd8 k 7#3).getLsbD 4 = s.flags.c) ∧
    (s.rd8 k 7#3).extractLsb' 0 4 = 0#4 ∧
    (s.unwritten.b = false → (s.rd16 k 0#2).extractLsb' 8 8 = s.regs.b) ∧
    (s.unwritten.c = false → (s.rd16 k 0#2).extractLsb' 0 8 = s.regs.c) ∧
    (s.unwritten.d = false → (s.rd16 k 1#2).extractLsb' 8 8 = s.regs.d) ∧
    (s.unwritten.e = false → (s.rd16 k 1#2).extractLsb' 0 8 = s.regs.e) ∧
    (s.unwritten.h = false → (s.rd16 k 2#2).extractLsb' 8 8 = s.regs.h) ∧
    (s.unwritten.l = false → (s.rd16 k 2#2).extractLsb' 0 8 = s.regs.l)

/-- R54: after a pair is written its registers read as its halves, and after its registers are written the pair reads
as the two put together. -/
def Obligations.MixedWidthAccess : Prop :=
  ∀ (s : State) (p : Pair) (k : Nat),
    (∀ v : Word16, ∃ t, exec (.set16 p v) s = .next t ∧
      t.rd8 k p.hi.sel = v.extractLsb' 8 8 ∧ t.rd8 k p.lo.sel = v.extractLsb' 0 8) ∧
    (∀ v w : Byte,
      ∃ t, execThen (.set8R p.hi v) (.set8R p.lo w) s = .next t ∧
        t.rd16 k (p.sel.setWidth 2) = v ++ w)

/-- R33 and R201: the flags packer loses nothing, and a byte written to F reads back with a zero lower nibble. -/
def Obligations.FlagsByteRoundTrip : Prop :=
  (∀ f : Flags, unpack (pack f) = f) ∧ (∀ b : Byte, pack (unpack b) = b &&& 0xF0#8) ∧
  ∀ (s : State) (b : Byte) (k : Nat), ∃ t, exec (.set8F b) s = .next t ∧ t.rd8 k 7#3 = b &&& 0xF0#8

/-- R255, pairwise: SET8 and SET16 operations that write no register in common may be exchanged, and where two write the
same register the later one's value of it stands: all of the earlier one is overwritten, or, for SET8 of a half after
SET16 of its pair, that half alone. -/
def Obligations.InitialisationOrderIsFree : Prop :=
  ∀ s : State,
    (∀ (r q : Reg8) (v w : Byte), r ≠ q →
      execThen (.set8R r v) (.set8R q w) s = execThen (.set8R q w) (.set8R r v) s) ∧
    (∀ (r : Reg8) (p : Pair) (v : Byte) (w : Word16), r ≠ p.hi → r ≠ p.lo →
      execThen (.set8R r v) (.set16 p w) s = execThen (.set16 p w) (.set8R r v) s) ∧
    (∀ (p q : Pair) (v w : Word16), p ≠ q →
      execThen (.set16 p v) (.set16 q w) s = execThen (.set16 q w) (.set16 p v) s) ∧
    (∀ (r : Reg8) (v b : Byte), execThen (.set8R r v) (.set8F b) s = execThen (.set8F b) (.set8R r v) s) ∧
    (∀ (p : Pair) (v : Word16) (b : Byte), execThen (.set16 p v) (.set8F b) s = execThen (.set8F b) (.set16 p v) s) ∧
    (∀ (r : Reg8) (v w : Byte), execThen (.set8R r v) (.set8R r w) s = exec (.set8R r w) s) ∧
    (∀ (p : Pair) (v w : Word16), execThen (.set16 p v) (.set16 p w) s = exec (.set16 p w) s) ∧
    (∀ (p : Pair) (v : Byte) (w : Word16), execThen (.set8R p.hi v) (.set16 p w) s = exec (.set16 p w) s) ∧
    (∀ (p : Pair) (v : Byte) (w : Word16), execThen (.set8R p.lo v) (.set16 p w) s = exec (.set16 p w) s) ∧
    (∀ (p : Pair) (v : Byte) (w : Word16),
      execThen (.set16 p w) (.set8R p.hi v) s = exec (.set16 p (v ++ w.extractLsb' 0 8)) s) ∧
    (∀ (p : Pair) (v : Byte) (w : Word16),
      execThen (.set16 p w) (.set8R p.lo v) s = exec (.set16 p (w.extractLsb' 8 8 ++ v)) s) ∧
    (∀ a b : Byte, execThen (.set8F a) (.set8F b) s = exec (.set8F b) s)

/-! ## Errors -/

/-- R222 to R226: each of the three errors records its cause and information if it is the first since reset, and
changes nothing else. -/
def Obligations.ErrorsAreRecordedInTheLatch : Prop :=
  ∀ (s : State) (p : PortInput) (rest : List PortInput), s.inputs = p :: rest → p.rst = false →
    (p.opKind = 1#3 → decodeCommand p.cmd = none → step s = .next (recorded s rest .illegalCommand p.cmd)) ∧
    (4 ≤ p.opKind.toNat → step s = .next (recorded s rest .reservedOpKind (p.opKind.setWidth 8))) ∧
    (p.opKind = 3#3 → p.sel.extractLsb' 0 2 = 3#2 → step s = .next (recorded s rest .reservedPair 0x03#8))

/-- R206, R226: the status port shows the cause's code in bits 9 to 8 and the information in bits 7 to 0. -/
def Obligations.StatusPortLayout : Prop :=
  ∀ s : State,
    s.errStatus.extractLsb' 0 8 = s.err.info ∧
    (s.err.cause = .noError → s.errStatus.extractLsb' 8 2 = 0#2) ∧
    (s.err.cause = .illegalCommand → s.errStatus.extractLsb' 8 2 = 1#2) ∧
    (s.err.cause = .reservedOpKind → s.errStatus.extractLsb' 8 2 = 2#2) ∧
    (s.err.cause = .reservedPair → s.errStatus.extractLsb' 8 2 = 3#2)

/-- R38, R224: the latch is set only by the first error after reset; later errors do not change it; only reset clears
it. -/
def Obligations.LatchIsSticky : Prop :=
  ∀ s t : State, step s = .next t →
    (s.err.cause ≠ .noError → t.err ≠ s.err →
      ∃ p rest, s.inputs = p :: rest ∧ p.rst = true ∧ t.err = ⟨.noError, 0#8⟩) ∧
    (s.err.cause = .noError → t.err.cause ≠ .noError →
      ∃ p rest e, s.inputs = p :: rest ∧ p.rst = false ∧ decode p = .error e ∧ t.err = latchOf e)

/-- R227: whatever the latch holds, an operation executes as it would with any other: the results differ in the latch
alone. -/
def Obligations.ErrorsDoNotAffectExecution : Prop :=
  ∀ (s t : State) (e : ErrLatch), step s = .next t →
    ∃ t', step { s with err := e } = .next t' ∧ { t' with err := t.err } = t

/-- R228: a cycle that raises an error changes only the latch; the caller's next operation is then the one after. -/
def Obligations.ErrorsArePrecise : Prop :=
  ∀ (s t : State) (p : PortInput) (rest : List PortInput) (e : PortError),
    s.inputs = p :: rest → p.rst = false → decode p = .error e → step s = .next t →
      t.regs = s.regs ∧ t.flags = s.flags ∧ t.unwritten = s.unwritten ∧ t.unwrittenFlags = s.unwrittenFlags ∧
        t.params = s.params ∧ t.inputs = rest

/-- R229: over runs without a reset from a state whose latch is clear, the fault view completes exactly where the
hardware's run ends well, and with the same end state. "This is the same as checking the latch." -/
def Obligations.FaultViewAgreesWithTheLatch : Prop :=
  ∀ (k : Nat) (s t : State), s.err.cause = .noError → NoReset s →
    (Host.Core.run faultingCore k s = .next t ↔ Host.Core.run core k s = .next t ∧ t.endsWell)

/-! ## Rules about the whole machine -/

/-- R21, R22, R30, R35: each instruction completes and changes only the registers and flags the spec says it writes. -/
def Obligations.InstructionsWriteOnlyTheirOwn : Prop :=
  ∀ (i : Instr) (s : State),
    ∃ t, exec i s = .next t ∧ Frame (regsWritten i) (flagsWritten s.params.inc8Carry i) s t

/-- R34: no instruction reads Z, N or H. Two states that differ in them alone give next states that agree everywhere
but in the flags among the three that the instruction leaves as they were. -/
def Obligations.NoInstructionReadsZNH : Prop :=
  ∀ (i : Instr) (s t : State) (f u : Flags), exec i s = .next t →
    ∃ t', exec i (withZNH s f u) = .next t' ∧
      t'.regs = t.regs ∧ t'.unwritten = t.unwritten ∧ t'.flags.c = t.flags.c ∧
      t'.unwrittenFlags.c = t.unwrittenFlags.c ∧ SameOutsideRegisterFile t t' ∧
      ∀ x : Flag,
        (t'.flags.get x = t.flags.get x ∧ t'.unwrittenFlags.get x = t.unwrittenFlags.get x) ∨
        (t.flags.get x = s.flags.get x ∧ t'.flags.get x = (withZNH s f u).flags.get x ∧
          x ∉ flagsWritten s.params.inc8Carry i)

/-- R39: the parameters are fixed at build time; no step changes them. -/
def Obligations.StepKeepsTheParameters : Prop :=
  ∀ s t : State, step s = .next t → t.params = s.params

/-- The latch is always one the block can hold (R38, R226). -/
def Obligations.StepKeepsTheLatchConsistent : Prop :=
  ∀ s t : State, s.err.consistent → step s = .next t → t.err.consistent

/-- The latch after reset is one the block can hold. -/
def Obligations.ResetLatchIsConsistent : Prop :=
  State.reset.err.consistent

/-- With `RESET_MODE = zero` no register or flag is ever unspecified, so that no read of one is a draw (R42, R251). -/
def Obligations.StepKeepsZeroModeSpecified : Prop :=
  ∀ s t : State, s.zeroModeSpecified → step s = .next t → t.zeroModeSpecified

/-- After reset nothing is unspecified. -/
def Obligations.ResetIsSpecified : Prop :=
  State.reset.zeroModeSpecified

/-! ## Arithmetic laws -/

/-- R137: in mode `unsigned` ADC gives the value and carry of the one-step sum, and H = 0 whenever the operand's low
nibble is 0xF and the carry-in is 1. -/
def Obligations.AdcAgainstTheOneStepSum : Prop :=
  ∀ (r : Reg8) (s : State) (l v : Nat), s.params.carryMode = .unsigned →
    l = (s.readReg .left .A).toNat → v = (s.readReg .right r).toNat →
    ∃ t, exec (.adcR r) s = .next t ∧ HoldsNat t .A ((l + v + carryNumber s) % 256) ∧
      (t.flags.c = true ↔ l + v + carryNumber s > 255) ∧
      (v % 16 = 15 → s.carryIn = true → t.flags.h = false)

/-- R141 and R143: SBC gives `A - value - carry-in` in every mode; in mode `unsigned` C is the true borrow; H = 0
whenever the operand's low nibble is 0xF and the carry-in is 1. -/
def Obligations.SbcAgainstTheOneStepDifference : Prop :=
  ∀ (r : Reg8) (s : State) (l v : Nat),
    l = (s.readReg .left .A).toNat → v = (s.readReg .right r).toNat →
    ∃ t, exec (.sbcR r) s = .next t ∧ HoldsNat t .A ((l + 512 - v - carryNumber s) % 256) ∧
      (s.params.carryMode = .unsigned → (t.flags.c = true ↔ v + carryNumber s > l)) ∧
      (v % 16 = 15 → s.carryIn = true → t.flags.h = false)

/-- R152: CP and SUB write the same four flags; they differ only in A. -/
def Obligations.CpAndSubWriteTheSameFlags : Prop :=
  ∀ (r : Reg8) (s : State),
    ∃ t u, exec (.cpR r) s = .next t ∧ exec (.subR r) s = .next u ∧ t.flags = u.flags ∧
      t.unwrittenFlags = u.unwrittenFlags ∧ SameRegsExcept [.A] t u ∧ SameOutsideRegisterFile t u

/-- R110: ADD then SUB with the same operand, in a register other than A, returns A to its value. The operand must be
specified, or its two reads are two draws. -/
def Obligations.AddThenSubRestoresA : Prop :=
  ∀ (r : Reg8) (s : State), r ≠ .A → s.unwritten.get r = false →
    ∃ t, execThen (.addR r) (.subR r) s = .next t ∧ t.holds .A (s.readReg .left .A)

/-- R160: INC then DEC of an 8-bit register restores its value, and the flags reflect only the DEC; with
`INC8_CARRY = preserve` C is the carry from before. -/
def Obligations.IncThenDecRestoresTheRegister : Prop :=
  ∀ (r : Reg8) (s : State),
    ∃ t, execThen (.incR r) (.decR r) s = .next t ∧ t.holds r (s.readReg .left r) ∧
      SteppedFlags s t r (s.readReg .left r = 0#8) True (((s.readReg .left r).toNat + 1) % 16 = 0)
        (s.readReg .left r = 0xFF#8)

/-- R189: INC then DEC of a pair restores it and leaves F unchanged. -/
def Obligations.IncThenDecRestoresThePair : Prop :=
  ∀ s : State,
    (∃ t, execThen .incBC .decBC s = .next t ∧ PairHolds t .BC (s.readPair .left .BC).toNat ∧
      Frame [.B, .C] [] s t) ∧
    (∃ t, execThen .incHL .decHL s = .next t ∧ PairHolds t .HL (s.readPair .left .HL).toNat ∧
      Frame [.H, .L] [] s t)

/-- R164: two CCFs restore the carry, clear N and H and leave Z. -/
def Obligations.CcfTwiceRestoresTheCarry : Prop :=
  ∀ (r q : Reg8) (s : State),
    ∃ t, execThen (.ccfR r) (.ccfR q) s = .next t ∧ t.flags.c = s.carryIn ∧ t.flags.n = false ∧ t.flags.h = false ∧
      Frame [] [.N, .H, .C] s t

/-- R138, R145, R147, R149, R151: the corner cases with A as both operands. A must be specified, or its two reads are
two draws (log entry 3). -/
def Obligations.AccumulatorAgainstItself : Prop :=
  ∀ s : State, s.unwritten.get .A = false →
    (∃ t, exec (.subR .A) s = .next t ∧ HoldsNat t .A 0 ∧ pack t.flags = 0xC0#8) ∧
    (∃ t, exec (.xorR .A) s = .next t ∧ HoldsNat t .A 0 ∧ pack t.flags = 0x80#8) ∧
    (∃ t, exec (.cpR .A) s = .next t ∧ t.regs = s.regs ∧ pack t.flags = 0xC0#8) ∧
    (∃ t, exec (.andR .A) s = .next t ∧ t.regs = s.regs ∧
      pack t.flags = if s.regs.get .A = 0#8 then 0xA0#8 else 0x20#8) ∧
    (∃ t, exec (.orR .A) s = .next t ∧ t.regs = s.regs ∧
      pack t.flags = if s.regs.get .A = 0#8 then 0x80#8 else 0x00#8)

/-- R182: the ADDHL datapath with a general operand. Source scenario 3 is its value at HL = 0x0100 and operand 1. -/
def Obligations.AddhlDatapathWithAnyOperand : Prop :=
  ∀ (s : State) (v : Word16) (l m : Nat), l = (s.readPair .left .HL).toNat → m = halfModulus s.params.hc16Mask →
    PairHolds (s.addToHL v) .HL ((l + v.toNat) % 65536) ∧
      FlagsAre (s.addToHL v) ((l + v.toNat) % 65536 = 0) False (l % m + v.toNat % m > m - 1)
        (carry16 s.params.carryMode l v.toNat) ∧
      Frame [.H, .L] allFlags s (s.addToHL v)
end

