-- ==== Sys2Proof/Laws/Decode.lean ====
section
/-! SUPPORT. The codes and selectors of the encoding tables, read back. -/

namespace Sys2Proof

@[simp] theorem opOfCode_code (o : Op) : opOfCode o.code = some o := by
  cases o <;> rfl

@[simp] theorem targetOfCode_code (t : Target) : targetOfCode t.code = some t := by
  cases t with
  | reg r => cases r <;> rfl
  | bc => rfl
  | hl => rfl

theorem commandOfWord_word (c : Command) : commandOfWord c.word = some c := by
  obtain ⟨o, t⟩ := c
  have ho : (o.code ++ t.code).extractLsb' 4 4 = o.code := by
    cases o <;> rcases t with r | _ | _ <;> first | rfl | (cases r <;> rfl)
  have ht : (o.code ++ t.code).extractLsb' 0 4 = t.code := by
    cases o <;> rcases t with r | _ | _ <;> first | rfl | (cases r <;> rfl)
  simp only [commandOfWord, Command.word]
  rw [ho, ht]
  simp

@[simp] theorem reg8OfSel_sel (r : Reg8) : reg8OfSel r.sel = some r := by
  cases r <;> rfl

/-- A pair names an instruction exactly when it is legal (R76). -/
theorem Command.instr?_isSome (c : Command) : c.instr?.isSome = c.wf := by
  obtain ⟨o, t⟩ := c
  cases o <;> cases t <;> rfl

/-- The pair an EXEC instruction stands for names that instruction. -/
theorem Instr.instr?_of_command? {i : Instr} {c : Command} (h : i.command? = some c) : c.instr? = some i := by
  cases i <;> simp only [Instr.command?, Option.some.injEq, reduceCtorEq] at h <;> subst h <;> rfl

/-- Every EXEC instruction's encoding is an EXEC operation of its pair's word. -/
theorem encode_of_command? {i : Instr} {c : Command} (h : i.command? = some c) : encode i = .exec c.word := by
  cases i <;> simp only [Instr.command?, Option.some.injEq, reduceCtorEq] at h <;> subst h <;> rfl

theorem extract_setWidth_byte (v : Byte) : (v.setWidth 16).extractLsb' 0 8 = v := by
  ext i hi
  have : i < 16 := by omega
  simp [hi, this]

end Sys2Proof
end

