-- ==== Sys2Proof/Laws/Flags.lean ====
section
/-! SUPPORT. What each ALU primitive computes, in numbers: one lemma for each of its outputs. -/

namespace Sys2Proof.Machine

theorem toNat_and_lowNibble (x : Byte) : (x &&& 0xF#8).toNat = x.toNat % 16 := by
  rw [BitVec.toNat_and]
  exact Nat.and_two_pow_sub_one_eq_mod _ 4

theorem toNat_and_hc16 (m : Hc16Mask) (x : Word16) :
    (x &&& hc16Value m).toNat = x.toNat % ((hc16Value m).toNat + 1) := by
  cases m
  · rw [BitVec.toNat_and]; exact Nat.and_two_pow_sub_one_eq_mod _ 12
  · rw [BitVec.toNat_and]; exact Nat.and_two_pow_sub_one_eq_mod _ 11

theorem add8_res (m : CarryMode) (l r : Byte) : (add8 m l r).res.toNat = (l.toNat + r.toNat) % 256 := by
  simp [add8]

theorem add8_z (m : CarryMode) (l r : Byte) : (add8 m l r).z = true ↔ (l.toNat + r.toNat) % 256 = 0 := by
  simp only [add8, decide_eq_true_eq]
  rw [← BitVec.toNat_inj]
  simp

theorem add8_h (m : CarryMode) (l r : Byte) : (add8 m l r).h = true ↔ l.toNat % 16 + r.toNat % 16 > 15 := by
  simp only [add8, decide_eq_true_eq, toNat_and_lowNibble]

theorem add8_c (m : CarryMode) (l r : Byte) : (add8 m l r).c = ovf8 m l r := rfl

theorem sub8_res (l r : Byte) : (sub8 l r).res.toNat = (l.toNat + 256 - r.toNat) % 256 := by
  have := r.isLt
  simp only [sub8, BitVec.toNat_sub]
  omega

theorem sub8_z (l r : Byte) : (sub8 l r).z = true ↔ (l.toNat + 256 - r.toNat) % 256 = 0 := by
  have h : (sub8 l r).z = true ↔ (sub8 l r).res.toNat = 0 := by
    simp only [sub8, decide_eq_true_eq]
    rw [← BitVec.toNat_inj]
    rfl
  rw [h, sub8_res]

theorem sub8_h (l r : Byte) : (sub8 l r).h = true ↔ l.toNat % 16 < r.toNat % 16 := by
  simp only [sub8, decide_eq_true_eq, toNat_and_lowNibble]

theorem sub8_c (l r : Byte) : (sub8 l r).c = true ↔ r.toNat > l.toNat := by
  simp [sub8]

theorem add16_res (m : CarryMode) (k : Hc16Mask) (l r : Word16) :
    (add16 m k l r).res.toNat = (l.toNat + r.toNat) % 65536 := by
  simp [add16]

theorem add16_z (m : CarryMode) (k : Hc16Mask) (l r : Word16) :
    (add16 m k l r).z = true ↔ (l.toNat + r.toNat) % 65536 = 0 := by
  simp only [add16, decide_eq_true_eq]
  rw [← BitVec.toNat_inj]
  simp

theorem add16_h (m : CarryMode) (k : Hc16Mask) (l r : Word16) :
    (add16 m k l r).h = true ↔
      l.toNat % ((hc16Value k).toNat + 1) + r.toNat % ((hc16Value k).toNat + 1) > (hc16Value k).toNat := by
  simp only [add16, decide_eq_true_eq, toNat_and_hc16]

theorem add16_c (m : CarryMode) (k : Hc16Mask) (l r : Word16) : (add16 m k l r).c = ovf16 m l r := rfl

/-- The carry-in as a byte is the number 0 or 1 (R132). -/
theorem carryByte_toNat (cin : Bool) : (carryByte cin).toNat = if cin then 1 else 0 := by
  cases cin <;> rfl

theorem adjusted_toNat (v : Byte) (cin : Bool) :
    (adjusted v cin).toNat = (v.toNat + if cin then 1 else 0) % 256 := by
  simp [adjusted, carryByte_toNat]

end Sys2Proof.Machine
end

