-- ==== Sys2Proof/Laws/State.lean ====
section
/-! SUPPORT. The small lemmas of the state: reading one of the seven after replacing one, and every field after every
update, so that no later proof unfolds a record update. -/

namespace Sys2Proof

theorem Pair.hi_ne_lo (p : Pair) : p.hi ≠ p.lo := by
  cases p <;> decide

end Sys2Proof

namespace Sys2Proof.Machine

/-! ## The register file -/

@[simp] theorem RegFile.get_set {α : Type} (f : RegFile α) (r q : Reg8) (v : α) :
    (f.set r v).get q = if q = r then v else f.get q := by
  cases r <;> cases q <;> rfl

theorem RegFile.ext_get {α : Type} {f g : RegFile α} (h : ∀ r, f.get r = g.get r) : f = g := by
  cases f; cases g
  have ha := h .A; have hb := h .B; have hc := h .C; have hd := h .D
  have he := h .E; have hh := h .H; have hl := h .L
  simp only [RegFile.get] at ha hb hc hd he hh hl
  simp [ha, hb, hc, hd, he, hh, hl]

theorem Flags.ext_get {f g : Flags} (h : ∀ x, f.get x = g.get x) : f = g := by
  cases f; cases g
  have hz := h .Z; have hn := h .N; have hh := h .H; have hc := h .C
  simp only [Flags.get] at hz hn hh hc
  simp [hz, hn, hh, hc]

@[simp] theorem RegFile.set_set {α : Type} (f : RegFile α) (r : Reg8) (v w : α) :
    (f.set r v).set r w = f.set r w := by
  cases r <;> rfl

theorem RegFile.set_comm {α : Type} (f : RegFile α) {r q : Reg8} (h : r ≠ q) (v w : α) :
    (f.set r v).set q w = (f.set q w).set r v := by
  apply RegFile.ext_get
  intro x
  simp only [RegFile.get_set]
  split <;> split <;> simp_all

/-! ## Every field after every update -/

@[simp] theorem State.writeReg_regs (s : State) (r : Reg8) (v : Byte) :
    (s.writeReg r v).regs = s.regs.set r v := rfl
@[simp] theorem State.writeReg_flags (s : State) (r : Reg8) (v : Byte) :
    (s.writeReg r v).flags = s.flags := rfl
@[simp] theorem State.writeReg_err (s : State) (r : Reg8) (v : Byte) :
    (s.writeReg r v).err = s.err := rfl
@[simp] theorem State.writeReg_params (s : State) (r : Reg8) (v : Byte) :
    (s.writeReg r v).params = s.params := rfl
@[simp] theorem State.writeReg_unwritten (s : State) (r : Reg8) (v : Byte) :
    (s.writeReg r v).unwritten = s.unwritten.set r false := rfl
@[simp] theorem State.writeReg_unwrittenFlags (s : State) (r : Reg8) (v : Byte) :
    (s.writeReg r v).unwrittenFlags = s.unwrittenFlags := rfl
@[simp] theorem State.writeReg_cycle (s : State) (r : Reg8) (v : Byte) :
    (s.writeReg r v).cycle = s.cycle := rfl
@[simp] theorem State.writeReg_inputs (s : State) (r : Reg8) (v : Byte) :
    (s.writeReg r v).inputs = s.inputs := rfl

@[simp] theorem State.writePair_regs (s : State) (p : Pair) (v : Word16) :
    (s.writePair p v).regs = (s.regs.set p.hi (v.extractLsb' 8 8)).set p.lo (v.extractLsb' 0 8) := rfl
@[simp] theorem State.writePair_flags (s : State) (p : Pair) (v : Word16) :
    (s.writePair p v).flags = s.flags := rfl
@[simp] theorem State.writePair_err (s : State) (p : Pair) (v : Word16) :
    (s.writePair p v).err = s.err := rfl
@[simp] theorem State.writePair_params (s : State) (p : Pair) (v : Word16) :
    (s.writePair p v).params = s.params := rfl
@[simp] theorem State.writePair_unwritten (s : State) (p : Pair) (v : Word16) :
    (s.writePair p v).unwritten = (s.unwritten.set p.hi false).set p.lo false := rfl
@[simp] theorem State.writePair_unwrittenFlags (s : State) (p : Pair) (v : Word16) :
    (s.writePair p v).unwrittenFlags = s.unwrittenFlags := rfl
@[simp] theorem State.writePair_cycle (s : State) (p : Pair) (v : Word16) :
    (s.writePair p v).cycle = s.cycle := rfl
@[simp] theorem State.writePair_inputs (s : State) (p : Pair) (v : Word16) :
    (s.writePair p v).inputs = s.inputs := rfl

@[simp] theorem State.writeFlags_regs (s : State) (f : Flags) :
    (s.writeFlags f).regs = s.regs := rfl
@[simp] theorem State.writeFlags_flags (s : State) (f : Flags) :
    (s.writeFlags f).flags = f := rfl
@[simp] theorem State.writeFlags_err (s : State) (f : Flags) :
    (s.writeFlags f).err = s.err := rfl
@[simp] theorem State.writeFlags_params (s : State) (f : Flags) :
    (s.writeFlags f).params = s.params := rfl
@[simp] theorem State.writeFlags_unwritten (s : State) (f : Flags) :
    (s.writeFlags f).unwritten = s.unwritten := rfl
@[simp] theorem State.writeFlags_unwrittenFlags (s : State) (f : Flags) :
    (s.writeFlags f).unwrittenFlags = ⟨false, false, false, false⟩ := rfl
@[simp] theorem State.writeFlags_cycle (s : State) (f : Flags) :
    (s.writeFlags f).cycle = s.cycle := rfl
@[simp] theorem State.writeFlags_inputs (s : State) (f : Flags) :
    (s.writeFlags f).inputs = s.inputs := rfl

@[simp] theorem State.writeFlagsKeepC_regs (s : State) (f : Flags) :
    (s.writeFlagsKeepC f).regs = s.regs := rfl
@[simp] theorem State.writeFlagsKeepC_flags (s : State) (f : Flags) :
    (s.writeFlagsKeepC f).flags = ⟨f.z, f.n, f.h, s.flags.c⟩ := rfl
@[simp] theorem State.writeFlagsKeepC_err (s : State) (f : Flags) :
    (s.writeFlagsKeepC f).err = s.err := rfl
@[simp] theorem State.writeFlagsKeepC_params (s : State) (f : Flags) :
    (s.writeFlagsKeepC f).params = s.params := rfl
@[simp] theorem State.writeFlagsKeepC_unwritten (s : State) (f : Flags) :
    (s.writeFlagsKeepC f).unwritten = s.unwritten := rfl
@[simp] theorem State.writeFlagsKeepC_unwrittenFlags (s : State) (f : Flags) :
    (s.writeFlagsKeepC f).unwrittenFlags = ⟨false, false, false, s.unwrittenFlags.c⟩ := rfl
@[simp] theorem State.writeFlagsKeepC_cycle (s : State) (f : Flags) :
    (s.writeFlagsKeepC f).cycle = s.cycle := rfl
@[simp] theorem State.writeFlagsKeepC_inputs (s : State) (f : Flags) :
    (s.writeFlagsKeepC f).inputs = s.inputs := rfl

@[simp] theorem State.writeFlagsKeepZ_regs (s : State) (f : Flags) :
    (s.writeFlagsKeepZ f).regs = s.regs := rfl
@[simp] theorem State.writeFlagsKeepZ_flags (s : State) (f : Flags) :
    (s.writeFlagsKeepZ f).flags = ⟨s.flags.z, f.n, f.h, f.c⟩ := rfl
@[simp] theorem State.writeFlagsKeepZ_err (s : State) (f : Flags) :
    (s.writeFlagsKeepZ f).err = s.err := rfl
@[simp] theorem State.writeFlagsKeepZ_params (s : State) (f : Flags) :
    (s.writeFlagsKeepZ f).params = s.params := rfl
@[simp] theorem State.writeFlagsKeepZ_unwritten (s : State) (f : Flags) :
    (s.writeFlagsKeepZ f).unwritten = s.unwritten := rfl
@[simp] theorem State.writeFlagsKeepZ_unwrittenFlags (s : State) (f : Flags) :
    (s.writeFlagsKeepZ f).unwrittenFlags = ⟨s.unwrittenFlags.z, false, false, false⟩ := rfl
@[simp] theorem State.writeFlagsKeepZ_cycle (s : State) (f : Flags) :
    (s.writeFlagsKeepZ f).cycle = s.cycle := rfl
@[simp] theorem State.writeFlagsKeepZ_inputs (s : State) (f : Flags) :
    (s.writeFlagsKeepZ f).inputs = s.inputs := rfl

@[simp] theorem State.writeAcc_regs (s : State) (res : Byte) (f : Flags) :
    (s.writeAcc res f).regs = s.regs.set .A res := rfl
@[simp] theorem State.writeAcc_flags (s : State) (res : Byte) (f : Flags) :
    (s.writeAcc res f).flags = f := rfl
@[simp] theorem State.writeAcc_err (s : State) (res : Byte) (f : Flags) :
    (s.writeAcc res f).err = s.err := rfl
@[simp] theorem State.writeAcc_params (s : State) (res : Byte) (f : Flags) :
    (s.writeAcc res f).params = s.params := rfl
@[simp] theorem State.writeAcc_unwritten (s : State) (res : Byte) (f : Flags) :
    (s.writeAcc res f).unwritten = s.unwritten.set .A false := rfl
@[simp] theorem State.writeAcc_unwrittenFlags (s : State) (res : Byte) (f : Flags) :
    (s.writeAcc res f).unwrittenFlags = ⟨false, false, false, false⟩ := rfl
@[simp] theorem State.writeAcc_cycle (s : State) (res : Byte) (f : Flags) :
    (s.writeAcc res f).cycle = s.cycle := rfl
@[simp] theorem State.writeAcc_inputs (s : State) (res : Byte) (f : Flags) :
    (s.writeAcc res f).inputs = s.inputs := rfl

@[simp] theorem State.applyReset_regs (s : State) :
    (s.applyReset).regs = State.reset.regs := rfl
@[simp] theorem State.applyReset_flags (s : State) :
    (s.applyReset).flags = State.reset.flags := rfl
@[simp] theorem State.applyReset_err (s : State) :
    (s.applyReset).err = ⟨.noError, 0#8⟩ := rfl
@[simp] theorem State.applyReset_params (s : State) :
    (s.applyReset).params = s.params := rfl
@[simp] theorem State.applyReset_unwritten (s : State) :
    (s.applyReset).unwritten = resetUnwritten s.params.resetMode := rfl
@[simp] theorem State.applyReset_unwrittenFlags (s : State) :
    (s.applyReset).unwrittenFlags = resetUnwrittenFlags s.params.resetMode := rfl
@[simp] theorem State.applyReset_cycle (s : State) :
    (s.applyReset).cycle = s.cycle := rfl
@[simp] theorem State.applyReset_inputs (s : State) :
    (s.applyReset).inputs = s.inputs := rfl

@[simp] theorem State.consume_regs (s : State) (rest : List PortInput) :
    (s.consume rest).regs = s.regs := rfl
@[simp] theorem State.consume_flags (s : State) (rest : List PortInput) :
    (s.consume rest).flags = s.flags := rfl
@[simp] theorem State.consume_err (s : State) (rest : List PortInput) :
    (s.consume rest).err = s.err := rfl
@[simp] theorem State.consume_params (s : State) (rest : List PortInput) :
    (s.consume rest).params = s.params := rfl
@[simp] theorem State.consume_unwritten (s : State) (rest : List PortInput) :
    (s.consume rest).unwritten = s.unwritten := rfl
@[simp] theorem State.consume_unwrittenFlags (s : State) (rest : List PortInput) :
    (s.consume rest).unwrittenFlags = s.unwrittenFlags := rfl
@[simp] theorem State.consume_cycle (s : State) (rest : List PortInput) :
    (s.consume rest).cycle = s.cycle + 1 := rfl
@[simp] theorem State.consume_inputs (s : State) (rest : List PortInput) :
    (s.consume rest).inputs = rest := rfl

@[simp] theorem State.presentNext_regs (s : State) (p : PortInput) :
    (s.presentNext p).regs = s.regs := rfl
@[simp] theorem State.presentNext_flags (s : State) (p : PortInput) :
    (s.presentNext p).flags = s.flags := rfl
@[simp] theorem State.presentNext_err (s : State) (p : PortInput) :
    (s.presentNext p).err = s.err := rfl
@[simp] theorem State.presentNext_params (s : State) (p : PortInput) :
    (s.presentNext p).params = s.params := rfl
@[simp] theorem State.presentNext_unwritten (s : State) (p : PortInput) :
    (s.presentNext p).unwritten = s.unwritten := rfl
@[simp] theorem State.presentNext_unwrittenFlags (s : State) (p : PortInput) :
    (s.presentNext p).unwrittenFlags = s.unwrittenFlags := rfl
@[simp] theorem State.presentNext_cycle (s : State) (p : PortInput) :
    (s.presentNext p).cycle = s.cycle := rfl
@[simp] theorem State.presentNext_inputs (s : State) (p : PortInput) :
    (s.presentNext p).inputs = p :: s.inputs := rfl

/-! ## `writeStepped` and `raiseError`, which branch -/

@[simp] theorem State.writeStepped_regs (s : State) (r : Reg8) (v : Byte) (f : Flags) :
    (s.writeStepped r v f).regs = s.regs.set r v := by
  unfold State.writeStepped; cases s.params.inc8Carry <;> rfl
@[simp] theorem State.writeStepped_unwritten (s : State) (r : Reg8) (v : Byte) (f : Flags) :
    (s.writeStepped r v f).unwritten = s.unwritten.set r false := by
  unfold State.writeStepped; cases s.params.inc8Carry <;> rfl
@[simp] theorem State.writeStepped_err (s : State) (r : Reg8) (v : Byte) (f : Flags) :
    (s.writeStepped r v f).err = s.err := by
  unfold State.writeStepped; cases s.params.inc8Carry <;> rfl
@[simp] theorem State.writeStepped_params (s : State) (r : Reg8) (v : Byte) (f : Flags) :
    (s.writeStepped r v f).params = s.params := by
  unfold State.writeStepped; cases s.params.inc8Carry <;> rfl
@[simp] theorem State.writeStepped_cycle (s : State) (r : Reg8) (v : Byte) (f : Flags) :
    (s.writeStepped r v f).cycle = s.cycle := by
  unfold State.writeStepped; cases s.params.inc8Carry <;> rfl
@[simp] theorem State.writeStepped_inputs (s : State) (r : Reg8) (v : Byte) (f : Flags) :
    (s.writeStepped r v f).inputs = s.inputs := by
  unfold State.writeStepped; cases s.params.inc8Carry <;> rfl
@[simp] theorem State.writeStepped_flags (s : State) (r : Reg8) (v : Byte) (f : Flags) :
    (s.writeStepped r v f).flags
      = ⟨f.z, f.n, f.h, match s.params.inc8Carry with | .overwrite => f.c | .preserve => s.flags.c⟩ := by
  unfold State.writeStepped; cases s.params.inc8Carry <;> rfl
@[simp] theorem State.writeStepped_unwrittenFlags (s : State) (r : Reg8) (v : Byte) (f : Flags) :
    (s.writeStepped r v f).unwrittenFlags
      = ⟨false, false, false, match s.params.inc8Carry with | .overwrite => false | .preserve => s.unwrittenFlags.c⟩ := by
  unfold State.writeStepped; cases s.params.inc8Carry <;> rfl

@[simp] theorem State.raiseError_regs (s : State) (e : PortError) :
    (s.raiseError e).regs = s.regs := by
  unfold State.raiseError; split <;> rfl
@[simp] theorem State.raiseError_flags (s : State) (e : PortError) :
    (s.raiseError e).flags = s.flags := by
  unfold State.raiseError; split <;> rfl
@[simp] theorem State.raiseError_err (s : State) (e : PortError) :
    (s.raiseError e).err = if s.err.cause = .noError then latchOf e else s.err := by
  unfold State.raiseError; split <;> rfl
@[simp] theorem State.raiseError_params (s : State) (e : PortError) :
    (s.raiseError e).params = s.params := by
  unfold State.raiseError; split <;> rfl
@[simp] theorem State.raiseError_unwritten (s : State) (e : PortError) :
    (s.raiseError e).unwritten = s.unwritten := by
  unfold State.raiseError; split <;> rfl
@[simp] theorem State.raiseError_unwrittenFlags (s : State) (e : PortError) :
    (s.raiseError e).unwrittenFlags = s.unwrittenFlags := by
  unfold State.raiseError; split <;> rfl
@[simp] theorem State.raiseError_cycle (s : State) (e : PortError) :
    (s.raiseError e).cycle = s.cycle := by
  unfold State.raiseError; split <;> rfl
@[simp] theorem State.raiseError_inputs (s : State) (e : PortError) :
    (s.raiseError e).inputs = s.inputs := by
  unfold State.raiseError; split <;> rfl

end Sys2Proof.Machine
end

