-- ==== Sys2Proof/Laws/Operands.lean ====
section
/-! SUPPORT. What a read gives, once the register or flag is specified, and the pair view's halves. -/

namespace Sys2Proof.Machine

theorem State.readReg_specified (s : State) (site : ReadSite) (r : Reg8) (h : s.unwritten.get r = false) :
    s.readReg site r = s.regs.get r := by
  simp [State.readReg, h]

theorem State.readFlag_specified (s : State) (site : ReadSite) (f : Flag) (h : s.unwrittenFlags.get f = false) :
    s.readFlag site f = s.flags.get f := by
  simp [State.readFlag, h]

theorem State.carryIn_specified (s : State) (h : s.unwrittenFlags.c = false) : s.carryIn = s.flags.c := by
  simp [State.carryIn, State.readFlag, Flags.get, h]

theorem State.readPair_specified (s : State) (site : ReadSite) (p : Pair)
    (hh : s.unwritten.get p.hi = false) (hl : s.unwritten.get p.lo = false) :
    s.readPair site p = s.regs.get p.hi ++ s.regs.get p.lo := by
  simp [State.readPair, State.readReg_specified, hh, hl]

/-- A pair is its halves put together (R24, R25). -/
theorem append_halves (v : Word16) : v.extractLsb' 8 8 ++ v.extractLsb' 0 8 = v := by
  apply BitVec.eq_of_toNat_eq
  have := v.isLt
  simp only [BitVec.toNat_append, BitVec.extractLsb'_toNat, Nat.shiftRight_zero]
  rw [← Nat.shiftLeft_add_eq_or_of_lt (by omega)]
  omega

/-- After a pair is written every read of it gives the value written (R25, R54). -/
theorem State.readPair_writePair (s : State) (site : ReadSite) (p : Pair) (v : Word16) :
    (s.writePair p v).readPair site p = v := by
  have h := Pair.hi_ne_lo p
  simp [State.readPair, State.readReg, h, append_halves]

/-- After a register is written every read of it gives the value written (R23). -/
theorem State.readReg_writeReg_same (s : State) (site : ReadSite) (r : Reg8) (v : Byte) :
    (s.writeReg r v).readReg site r = v := by
  simp [State.readReg]

/-- Writing a register leaves every read of another one as it was (R21). -/
theorem State.readReg_writeReg_other (s : State) (site : ReadSite) {r q : Reg8} (h : q ≠ r) (v : Byte) :
    (s.writeReg r v).readReg site q = s.readReg site q := by
  simp [State.readReg, h]

/-- Two states with the same fields are the same. -/
theorem State.ext_fields {s t : State} (regs : s.regs = t.regs) (flags : s.flags = t.flags) (err : s.err = t.err)
    (params : s.params = t.params) (unwritten : s.unwritten = t.unwritten)
    (unwrittenFlags : s.unwrittenFlags = t.unwrittenFlags) (cycle : s.cycle = t.cycle) (inputs : s.inputs = t.inputs) :
    s = t := by
  cases s; cases t; simp_all

/-- Writes of two registers may be exchanged (R21). -/
theorem State.writeReg_comm (s : State) {r q : Reg8} (h : r ≠ q) (v w : Byte) :
    (s.writeReg r v).writeReg q w = (s.writeReg q w).writeReg r v := by
  apply State.ext_fields <;> simp only [State.writeReg_regs, State.writeReg_unwritten, State.writeReg_flags,
    State.writeReg_err, State.writeReg_params, State.writeReg_unwrittenFlags, State.writeReg_cycle,
    State.writeReg_inputs]
  · exact RegFile.set_comm _ h _ _
  · exact RegFile.set_comm _ h _ _

/-- Of two writes of one register the later wins. -/
theorem State.writeReg_again (s : State) (r : Reg8) (v w : Byte) :
    (s.writeReg r v).writeReg r w = s.writeReg r w := by
  apply State.ext_fields <;> simp

/-- The halves of a pair value put together from two bytes. -/
theorem halves_append (v w : Byte) : (v ++ w).extractLsb' 8 8 = v ∧ (v ++ w).extractLsb' 0 8 = w := by
  have h : (v ++ w).toNat = v.toNat * 256 + w.toNat := by
    rw [BitVec.toNat_append, ← Nat.shiftLeft_add_eq_or_of_lt w.isLt, Nat.shiftLeft_eq]
  have hv := v.isLt
  have hw := w.isLt
  constructor <;> apply BitVec.eq_of_toNat_eq <;> rw [BitVec.extractLsb'_toNat, h] <;>
    simp only [Nat.shiftRight_eq_div_pow] <;> omega

end Sys2Proof.Machine
end

