-- ==== Sys2Proof/Laws/Frames.lean ====
section
/-! SUPPORT. The frame of each shared write, said once. -/

namespace Sys2Proof.Machine

theorem frame_writeReg (s : State) (r : Reg8) (v : Byte) : Frame [r] [] s (s.writeReg r v) := by
  refine ⟨fun q hq => ?_, fun _ _ => ⟨rfl, rfl⟩, by simp [SameOutsideRegisterFile]⟩
  simp only [List.mem_singleton] at hq
  simp [hq]

theorem frame_writePair (s : State) (p : Pair) (v : Word16) : Frame [p.hi, p.lo] [] s (s.writePair p v) := by
  refine ⟨fun q hq => ?_, fun _ _ => ⟨rfl, rfl⟩, by simp [SameOutsideRegisterFile]⟩
  simp only [List.mem_cons, List.not_mem_nil, or_false, not_or] at hq
  simp [hq]

theorem frame_writeFlags (s : State) (f : Flags) : Frame [] allFlags s (s.writeFlags f) := by
  refine ⟨fun _ _ => ⟨rfl, rfl⟩, fun x hx => ?_, by simp [SameOutsideRegisterFile]⟩
  cases x <;> simp [allFlags] at hx

theorem frame_writeAcc (s : State) (v : Byte) (f : Flags) : Frame [.A] allFlags s (s.writeAcc v f) := by
  refine ⟨fun q hq => ?_, fun x hx => ?_, by simp [SameOutsideRegisterFile]⟩
  · simp only [List.mem_singleton] at hq
    simp [hq]
  · cases x <;> simp [allFlags] at hx

theorem frame_writeFlagsKeepZ (s : State) (f : Flags) : Frame [] [.N, .H, .C] s (s.writeFlagsKeepZ f) := by
  refine ⟨fun _ _ => ⟨rfl, rfl⟩, fun x hx => ?_, by simp [SameOutsideRegisterFile]⟩
  cases x <;> simp at hx
  exact ⟨rfl, rfl⟩

theorem frame_writeStepped_overwrite (s : State) (r : Reg8) (v : Byte) (f : Flags) :
    Frame [r] allFlags s (s.writeStepped r v f) := by
  refine ⟨fun q hq => ?_, fun x hx => ?_, by simp [SameOutsideRegisterFile]⟩
  · simp only [List.mem_singleton] at hq
    simp [hq]
  · cases x <;> simp [allFlags] at hx

theorem frame_writeStepped_preserve (s : State) (r : Reg8) (v : Byte) (f : Flags)
    (hm : s.params.inc8Carry = .preserve) : Frame [r] [.Z, .N, .H] s (s.writeStepped r v f) := by
  refine ⟨fun q hq => ?_, fun x hx => ?_, by simp [SameOutsideRegisterFile]⟩
  · simp only [List.mem_singleton] at hq
    simp [hq]
  · cases x <;> simp at hx
    simp [Flags.get, hm]

/-- A pair just written holds the value written, high byte first. -/
theorem writePair_holds (s : State) (p : Pair) (v : Word16) :
    (s.writePair p v).holds p.hi (v.extractLsb' 8 8) ∧ (s.writePair p v).holds p.lo (v.extractLsb' 0 8) := by
  have h := p.hi_ne_lo
  simp [State.holds, h]

end Sys2Proof.Machine
end

