-- ==== Sys2Proof/Laws/Meanings.lean ====
section
/-! SUPPORT. What one instruction and one step can do, said once: `exec` answers the next state `afterInstr`, and a step
is one of four cases. -/

namespace Sys2Proof.Machine

/-- The next state of an instruction. -/
def afterInstr (s : State) (i : Instr) : State :=
  match exec i s with
  | .next t => t
  | .fault _ => s
  | .refused _ => s

/-- Every instruction answers a next state. -/
theorem exec_eq_next (i : Instr) (s : State) : exec i s = .next (afterInstr s i) := by
  cases i <;> rfl

/-- No instruction touches the latch, the parameters, the cycle's number or the pending operations. -/
theorem afterInstr_outside (s : State) (i : Instr) :
    (afterInstr s i).err = s.err ∧ (afterInstr s i).params = s.params ∧ (afterInstr s i).cycle = s.cycle ∧
      (afterInstr s i).inputs = s.inputs := by
  cases i <;>
    simp [afterInstr, exec, execAddR, execAddhlHL, execAdcR, execSubR, execSbcR, execAndR, execOrR, execXorR, execCpR,
      execIncR, execIncBC, execIncHL, execDecR, execDecBC, execDecHL, execCcfR, execIdle, execSet8R, execSet8F,
      execSet16, State.addToHL, State.incPair, State.decPair]

/-- The state after one cycle with the inputs `p`. -/
def afterEdge (p : PortInput) (s : State) : State :=
  if p.rst then s.applyReset
  else match decode p with
    | .ok i => afterInstr s i
    | .error e => s.raiseError e

/-- Every clock edge answers a next state. -/
theorem clockEdge_eq_next (p : PortInput) (s : State) : clockEdge p s = .next (afterEdge p s) := by
  unfold clockEdge afterEdge
  split
  · rfl
  · cases decode p <;> simp [exec_eq_next]

/-- What a step can do: hold the state, reset, execute an instruction or record an error. -/
theorem step_cases {s t : State} (h : step s = .next t) :
    (s.inputs = [] ∧ t = s) ∨
    ∃ p rest, s.inputs = p :: rest ∧
      ((p.rst = true ∧ t = (s.consume rest).applyReset) ∨
       (p.rst = false ∧ ∃ i, decode p = .ok i ∧ t = afterInstr (s.consume rest) i) ∨
       (p.rst = false ∧ ∃ e, decode p = .error e ∧ t = (s.consume rest).raiseError e)) := by
  unfold step nextCycle at h
  cases hin : s.inputs with
  | nil => simp only [hin, Host.Outcome.next.injEq] at h; exact .inl ⟨rfl, h.symm⟩
  | cons p rest =>
    simp only [hin, clockEdge_eq_next, Host.Outcome.next.injEq] at h
    refine .inr ⟨p, rest, rfl, ?_⟩
    unfold afterEdge at h
    cases hr : p.rst with
    | true => simp only [hr, if_true] at h; exact .inl ⟨rfl, h.symm⟩
    | false =>
      simp only [hr, Bool.false_eq_true, if_false] at h
      cases hd : decode p with
      | ok i => simp only [hd] at h; exact .inr (.inl ⟨rfl, i, rfl, h.symm⟩)
      | error e => simp only [hd] at h; exact .inr (.inr ⟨rfl, e, rfl, h.symm⟩)

end Sys2Proof.Machine
end

