-- ==== Sys2Proof/Laws/PerInstr.lean ====
section
/-! SUPPORT. Statements for all instructions, one lemma for each constructor. -/

namespace Sys2Proof.Laws.Legal

/-- The instruction is well formed, and it is encoded as an operation of a kind that is not reserved, in a cycle without
reset (R71, R76). -/
def Statement (i : Instr) : Prop :=
  i.wf = true ∧ (encode i).opKind.toNat ≤ 3 ∧ (encode i).rst = false

theorem addR (r : Reg8) : Statement (.addR r) := ⟨rfl, Nat.le_of_ble_eq_true rfl, rfl⟩
theorem addhlHL : Statement .addhlHL := ⟨rfl, Nat.le_of_ble_eq_true rfl, rfl⟩
theorem adcR (r : Reg8) : Statement (.adcR r) := ⟨rfl, Nat.le_of_ble_eq_true rfl, rfl⟩
theorem subR (r : Reg8) : Statement (.subR r) := ⟨rfl, Nat.le_of_ble_eq_true rfl, rfl⟩
theorem sbcR (r : Reg8) : Statement (.sbcR r) := ⟨rfl, Nat.le_of_ble_eq_true rfl, rfl⟩
theorem andR (r : Reg8) : Statement (.andR r) := ⟨rfl, Nat.le_of_ble_eq_true rfl, rfl⟩
theorem orR (r : Reg8) : Statement (.orR r) := ⟨rfl, Nat.le_of_ble_eq_true rfl, rfl⟩
theorem xorR (r : Reg8) : Statement (.xorR r) := ⟨rfl, Nat.le_of_ble_eq_true rfl, rfl⟩
theorem cpR (r : Reg8) : Statement (.cpR r) := ⟨rfl, Nat.le_of_ble_eq_true rfl, rfl⟩
theorem incR (r : Reg8) : Statement (.incR r) := ⟨rfl, Nat.le_of_ble_eq_true rfl, rfl⟩
theorem incBC : Statement .incBC := ⟨rfl, Nat.le_of_ble_eq_true rfl, rfl⟩
theorem incHL : Statement .incHL := ⟨rfl, Nat.le_of_ble_eq_true rfl, rfl⟩
theorem decR (r : Reg8) : Statement (.decR r) := ⟨rfl, Nat.le_of_ble_eq_true rfl, rfl⟩
theorem decBC : Statement .decBC := ⟨rfl, Nat.le_of_ble_eq_true rfl, rfl⟩
theorem decHL : Statement .decHL := ⟨rfl, Nat.le_of_ble_eq_true rfl, rfl⟩
theorem ccfR (r : Reg8) : Statement (.ccfR r) := ⟨rfl, Nat.le_of_ble_eq_true rfl, rfl⟩
theorem idle : Statement .idle := ⟨rfl, Nat.le_of_ble_eq_true rfl, rfl⟩
theorem set8R (r : Reg8) (v : Byte) : Statement (.set8R r v) := ⟨rfl, Nat.le_of_ble_eq_true rfl, rfl⟩
theorem set8F (b : Byte) : Statement (.set8F b) := ⟨rfl, Nat.le_of_ble_eq_true rfl, rfl⟩
theorem set16 (p : Pair) (v : Word16) : Statement (.set16 p v) := ⟨rfl, Nat.le_of_ble_eq_true rfl, rfl⟩

end Sys2Proof.Laws.Legal
end

