-- ==== Sys2Proof/Tests/Slice0.lean ====
section
/-! SUPPORT. The model's own tests. Every expected result comes from the spec: the encoding tables R71 to R87 and the
vectors of spec/95_test_vectors.md, named in each comment. The last part gives, for each obligation with hypotheses, a
state and operands that meet them. -/

namespace Sys2Proof.Tests

open Sys2Proof.Machine Sys2Proof.Claims

/-! ## WellFormed: one ill-formed pair for each check -/

/-- R78: an 8-bit instruction with a 16-bit target. -/
theorem test_wf_refuses_add_bc : Command.wf ⟨.add, .bc⟩ = false := by decide
/-- R78: CCF with a 16-bit target. -/
theorem test_wf_refuses_ccf_hl : Command.wf ⟨.ccf, .hl⟩ = false := by decide
/-- R78, R183: ADDHL with an 8-bit target, the source's own example. -/
theorem test_wf_refuses_addhl_a : Command.wf ⟨.addhl, .reg .A⟩ = false := by decide
/-- R78, R183: ADDHL BC. -/
theorem test_wf_refuses_addhl_bc : Command.wf ⟨.addhl, .bc⟩ = false := by decide
/-- R76: INC BC is legal. -/
theorem test_wf_accepts_inc_bc : Command.wf ⟨.inc, .bc⟩ = true := by decide

/-! ## Decode: a word of every constructor, written out from R73, R74, R71, R80, R81 -/

theorem test_decode_add : decodeTableWord 8 0b00000001 = some (.addR .B) := by decide
theorem test_decode_addhl : decodeTableWord 8 0b00011000 = some .addhlHL := by decide
theorem test_decode_adc : decodeTableWord 8 0b00100100 = some (.adcR .E) := by decide
theorem test_decode_sub : decodeTableWord 8 0b00110011 = some (.subR .D) := by decide
theorem test_decode_sbc : decodeTableWord 8 0b01000101 = some (.sbcR .H) := by decide
theorem test_decode_and : decodeTableWord 8 0b01010001 = some (.andR .B) := by decide
theorem test_decode_or : decodeTableWord 8 0b01100010 = some (.orR .C) := by decide
theorem test_decode_xor : decodeTableWord 8 0b01110110 = some (.xorR .L) := by decide
theorem test_decode_cp : decodeTableWord 8 0b10000000 = some (.cpR .A) := by decide
theorem test_decode_inc : decodeTableWord 8 0b10010110 = some (.incR .L) := by decide
theorem test_decode_inc_bc : decodeTableWord 8 0b10010111 = some .incBC := by decide
theorem test_decode_inc_hl : decodeTableWord 8 0b10011000 = some .incHL := by decide
theorem test_decode_dec : decodeTableWord 8 0b10100000 = some (.decR .A) := by decide
theorem test_decode_dec_bc : decodeTableWord 8 0b10100111 = some .decBC := by decide
theorem test_decode_dec_hl : decodeTableWord 8 0b10101000 = some .decHL := by decide
theorem test_decode_ccf : decodeTableWord 8 0b10110110 = some (.ccfR .L) := by decide
/-- Vector V14.11: every input but `op_kind` is ignored. -/
theorem test_decode_idle : decode ⟨0#3, 0x07#8, 3#3, 0xFFFF#16, false⟩ = .ok .idle := by rfl
/-- Vector V14.5: `data[15:8]` is ignored. -/
theorem test_decode_set8 : decode ⟨2#3, 0#8, 0#3, 0xFF12#16, false⟩ = .ok (.set8R .A 0x12#8) := by rfl
/-- Vector V14.4. -/
theorem test_decode_set8_f : decode ⟨2#3, 0#8, 7#3, 0x1234#16, false⟩ = .ok (.set8F 0x34#8) := by rfl
/-- Vector V14.9: `sel[2]` is ignored, selector 6 is HL. -/
theorem test_decode_set16 : decode ⟨3#3, 0#8, 6#3, 0x0100#16, false⟩ = .ok (.set16 .HL 0x0100#16) := by rfl
/-- Log entry 8: SET16 DE in the model's packing of the port inputs. -/
theorem test_decode_packed_set16 : decodeTableWord 32 0xBEEF0B00 = some (.set16 .DE 0xBEEF#16) := by decide
/-- Vector V15.4: reserved target code 9. -/
theorem test_decode_illegal : decode ⟨1#3, 0x99#8, 0#3, 0#16, false⟩ = .error (.illegalCommand 0x99#8) := by rfl

/-! ## The meanings, against the vectors -/

/-- Reset, with the registers A, B, C, D, E, H, L and the flags byte given. -/
def start (a b c d e h l : Byte) (f : Byte) : State :=
  { State.reset with regs := ⟨a, b, c, d, e, h, l⟩, flags := unpack f }

/-- The same with one parameter setting other than the default. -/
def startWith (p : Params) (a b c d e h l : Byte) (f : Byte) : State :=
  { start a b c d e h l f with params := p }

/-- A next state with these registers and this flags byte, the latch still clear. -/
def ends (o : Host.Outcome State Fault Refusal) (a b c d e h l : Byte) (f : Byte) : Bool :=
  match o with
  | .next t => decide (t.regs = ⟨a, b, c, d, e, h, l⟩) && decide (pack t.flags = f) && decide (t.err = ⟨.noError, 0#8⟩)
  | .fault _ => false
  | .refused _ => false

/-- V1.3. -/
theorem test_add : ends (exec (.addR .B) (start 0x3A 0xC6 0 0 0 0 0 0)) 0x00 0xC6 0 0 0 0 0 0xB0 = true := by decide
/-- V1.15: `ref_wrap` gives no carry although the sum wraps. -/
theorem test_add_ref_wrap :
    ends (exec (.addR .B) (startWith { Params.default with carryMode := .refWrap } 0x64 0xC8 0 0 0 0 0 0))
      0x2C 0xC8 0 0 0 0 0 0x00 = true := by decide
/-- V2.2: the pre-step overflow sets C. -/
theorem test_adc : ends (exec (.adcR .E) (start 0xE1 0 0 0 0xFF 0 0 0x10)) 0xE1 0 0 0 0xFF 0 0 0x10 = true := by decide
/-- V2.3: the two-step half-carry. -/
theorem test_adc_half : ends (exec (.adcR .B) (start 0x00 0x0F 0 0 0 0 0 0x10)) 0x10 0x0F 0 0 0 0 0 0x00 = true := by decide
/-- V3.1. -/
theorem test_sub : ends (exec (.subR .D) (start 0x3E 0 0 0x0F 0 0 0 0)) 0x2F 0 0 0x0F 0 0 0 0x60 = true := by decide
/-- V3.3: a borrow from 0. -/
theorem test_sub_borrow : ends (exec (.subR .B) (start 0 0x01 0 0 0 0 0 0)) 0xFF 0x01 0 0 0 0 0 0x70 = true := by decide
/-- V4.1. -/
theorem test_sbc : ends (exec (.sbcR .H) (start 0x3B 0 0 0 0 0x2A 0 0x10)) 0x10 0 0 0 0 0x2A 0 0x40 = true := by decide
/-- V4.5. -/
theorem test_sbc_pre : ends (exec (.sbcR .B) (start 0 0xFF 0 0 0 0 0 0x10)) 0 0xFF 0 0 0 0 0 0xD0 = true := by decide
/-- V5.3: C is cleared. -/
theorem test_and : ends (exec (.andR .D) (start 0xF0 0 0 0xFF 0 0 0 0x10)) 0xF0 0 0 0xFF 0 0 0 0x20 = true := by decide
/-- V6.2. -/
theorem test_or : ends (exec (.orR .B) (start 0 0 0 0 0 0 0 0x70)) 0 0 0 0 0 0 0 0x80 = true := by decide
/-- V6.1. -/
theorem test_or_value : ends (exec (.orR .C) (start 0x5A 0 0x0F 0 0 0 0 0)) 0x5F 0 0x0F 0 0 0 0 0x00 = true := by decide
/-- V7.1. -/
theorem test_xor : ends (exec (.xorR .L) (start 0x5A 0 0 0 0 0 0xFF 0)) 0xA5 0 0 0 0 0 0xFF 0x00 = true := by decide
/-- V8.1, source scenario 5. -/
theorem test_cp : ends (exec (.cpR .B) (start 0x14 0x1E 0 0 0 0 0 0)) 0x14 0x1E 0 0 0 0 0 0x70 = true := by decide
/-- V9.2: the wrap writes C. -/
theorem test_inc : ends (exec (.incR .B) (start 0 0xFF 0 0 0 0 0 0)) 0 0x00 0 0 0 0 0 0xB0 = true := by decide
/-- V9.5: `preserve` keeps C. -/
theorem test_inc_preserve :
    ends (exec (.incR .C) (startWith { Params.default with inc8Carry := .preserve } 0 0 0x01 0 0 0 0 0x10))
      0 0 0x02 0 0 0 0 0x10 = true := by decide
/-- V10.2. -/
theorem test_dec : ends (exec (.decR .D) (start 0 0 0 0x00 0 0 0 0)) 0 0 0 0xFF 0 0 0 0x70 = true := by decide
/-- V10.3. -/
theorem test_dec_preserve :
    ends (exec (.decR .D) (startWith { Params.default with inc8Carry := .preserve } 0 0 0 0x00 0 0 0 0))
      0 0 0 0xFF 0 0 0 0x60 = true := by decide
/-- V11.3: Z kept. -/
theorem test_ccf : ends (exec (.ccfR .A) (start 0 0 0 0 0 0 0 0xF0)) 0 0 0 0 0 0 0 0x80 = true := by decide
/-- V11.6: the target is ignored. -/
theorem test_ccf_target : ends (exec (.ccfR .L) (start 0 0 0 0 0 0 0x33 0x10)) 0 0 0 0 0 0 0x33 0x00 = true := by decide
/-- V12.2. -/
theorem test_addhl : ends (exec .addhlHL (start 0 0 0 0 0 0x8A 0x23 0)) 0 0 0 0 0 0x14 0x46 0x30 = true := by decide
/-- V12.3: the literal mask. -/
theorem test_addhl_07FF :
    ends (exec .addhlHL (startWith { Params.default with hc16Mask := .x07FF } 0 0 0 0 0 0x8A 0x23 0))
      0 0 0 0 0 0x14 0x46 0x10 = true := by decide
/-- V13.1. -/
theorem test_inc_bc : ends (exec .incBC (start 0 0x12 0xFF 0 0 0 0 0x50)) 0 0x13 0x00 0 0 0 0 0x50 = true := by decide
/-- V13.3. -/
theorem test_inc_hl : ends (exec .incHL (start 0 0 0 0 0 0x00 0xFF 0xA0)) 0 0 0 0 0 0x01 0x00 0xA0 = true := by decide
/-- V13.5. -/
theorem test_dec_bc : ends (exec .decBC (start 0 0x01 0x00 0 0 0 0 0x30)) 0 0x00 0xFF 0 0 0 0 0x30 = true := by decide
/-- V13.4. -/
theorem test_dec_hl : ends (exec .decHL (start 0 0 0 0 0 0 0 0x80)) 0 0 0 0 0 0xFF 0xFF 0x80 = true := by decide
/-- V14.11. -/
theorem test_idle : ends (exec .idle (start 0x77 0 0 0 0 0 0 0xB0)) 0x77 0 0 0 0 0 0 0xB0 = true := by decide
/-- V14.10: writing H changes HL. -/
theorem test_set8 : ends (exec (.set8R .H 0xAB#8) (start 0 0 0 0 0 0x12 0x34 0)) 0 0 0 0 0 0xAB 0x34 0 = true := by decide
/-- V14.3. -/
theorem test_set8_f : ends (exec (.set8F 0xA5#8) State.reset) 0 0 0 0 0 0 0 0xA0 = true := by decide
/-- V14.8. -/
theorem test_set16 : ends (exec (.set16 .DE 0xBEEF#16) State.reset) 0 0 0 0xBE 0xEF 0 0 0 = true := by decide
/-- Source scenario 3, the 16-bit adder with the operand 1 (R182): result 0x0101, no flag. -/
theorem test_scenario3 : add16 .unsigned .x0FFF 0x0100#16 0x0001#16 = ⟨0x0101#16, false, false, false⟩ := by decide
/-- Source scenario 6: BC reads 2570. -/
theorem test_scenario6 : (start 0 10 10 0 0 0 0 0).rd16 0 0#2 = 0x0A0A#16 := by decide

/-! ## Cycles -/

/-- The state before a cycle with the inputs `p`. -/
def before (p : PortInput) (s : State) : State :=
  { s with inputs := [p] }

/-- What the status port shows after a step, with A. -/
def statusAfter (s : State) : Option (BitVec 10 × Byte) :=
  match step s with
  | .next t => some (t.errStatus, t.regs.a)
  | .fault _ => none
  | .refused _ => none

/-- V15.1: ADD BC is illegal; the status port then reads 0x107 (program P6). -/
theorem test_illegal_word :
    statusAfter (before ⟨1#3, 0x07#8, 0#3, 0#16, false⟩ (start 5 1 2 0 0 0 0 0)) = some (0x107#10, 5#8) := by decide
/-- V15.9. -/
theorem test_reserved_kind :
    statusAfter (before ⟨7#3, 0#8, 0#3, 0#16, false⟩ (start 5 0 0 0 0 0 0 0)) = some (0x207#10, 5#8) := by decide
/-- V15.10. -/
theorem test_reserved_pair :
    statusAfter (before ⟨3#3, 0#8, 3#3, 0xFFFF#16, false⟩ (start 5 0 0 0 0 0x11 0x11 0)) = some (0x303#10, 5#8) := by
  decide
/-- V15.11, its second operation: the first error is kept. -/
theorem test_first_error_kept :
    statusAfter (before ⟨5#3, 0#8, 0#3, 0#16, false⟩ { start 5 0 0 0 0 0 0 0 with err := ⟨.illegalCommand, 7#8⟩ }) =
      some (0x107#10, 5#8) := by decide
/-- V15.12, its second operation: execution continues. -/
theorem test_continues_after_error :
    statusAfter (before ⟨1#3, 0x00#8, 0#3, 0#16, false⟩ { start 5 0 0 0 0 0 0 0 with err := ⟨.illegalCommand, 7#8⟩ }) =
      some (0x107#10, 0x0A#8) := by decide
/-- V15.13, its second operation: reset clears everything and discards the operation. -/
theorem test_reset_wins :
    statusAfter (before ⟨5#3, 0#8, 0#3, 0#16, true⟩ { start 5 0 0 0 0 0 0 0xF0 with err := ⟨.illegalCommand, 7#8⟩ }) =
      some (0x000#10, 0x00#8) := by decide
/-- P6, the fault view: it stops with IllegalCommand(0x07). -/
theorem test_fault_view :
    (match stepFaulting (before ⟨1#3, 0x07#8, 0#3, 0#16, false⟩ State.reset) with
      | .fault f => decide (f = .illegalCommand 0x07#8)
      | .next _ => false
      | .refused _ => false) = true := by decide
/-- The word of ADD B placed for the next step: it runs. -/
theorem test_fetch_word :
    statusAfter ((start 1 2 0 0 0 0 0 0).withFetchWord 8 0x01) = some (0x000#10, 3#8) := by decide

/-- The state P7 has before its step 4: after a reset with `RESET_MODE = unspecified`, A and C written. -/
def p7 : State :=
  { startWith { Params.default with resetMode := .unspecified } 0x40 0 0x01 0 0 0 0 0 with
    unwritten := ⟨false, true, false, true, true, true, true⟩
    unwrittenFlags := ⟨true, true, true, true⟩ }

/-- P7, step 4: SUB C is defined, because it reads only A and C, and it writes all four flags. -/
theorem test_p7_sub :
    ends (exec (.subR .C) p7) 0x3F 0 0x01 0 0 0 0 0x60 = true := by decide
/-- P7: a read of B, which nothing has written, is a draw. -/
theorem test_p7_draw : p7.rd8 0 1#3 = Config.regDraw 0 (.port 0) .B := by rfl

/-! ## The hypotheses of the obligations are met -/

/-- Two operations: ADD B, then IDLE. -/
def twoOps : State :=
  { start 1 2 0 0 0 0 0 0 with inputs := [⟨1#3, 0x01#8, 0#3, 0#16, false⟩, ⟨0#3, 0#8, 0#3, 0#16, false⟩] }

theorem witness_roundTrip : Instr.wf .addhlHL = true ∧ Instr.wf (.set8R .L 0xFF#8) = true := by decide
theorem witness_canonical : decode ⟨3#3, 0xFF#8, 6#3, 0xFFFF#16, true⟩ = .ok (.set16 .HL 0xFFFF#16) := by rfl
theorem witness_stepExecutes :
    twoOps.inputs = ⟨1#3, 0x01#8, 0#3, 0#16, false⟩ :: [⟨0#3, 0#8, 0#3, 0#16, false⟩] ∧
      decode ⟨1#3, 0x01#8, 0#3, 0#16, false⟩ = .ok (.addR .B) := ⟨rfl, rfl⟩
/-- For BackToBackOperations: two operations, both with an instruction. -/
theorem witness_backToBack :
    twoOps.inputs = ⟨1#3, 0x01#8, 0#3, 0#16, false⟩ :: ⟨0#3, 0#8, 0#3, 0#16, false⟩ :: [] ∧
      decode ⟨1#3, 0x01#8, 0#3, 0#16, false⟩ = .ok (.addR .B) ∧ decode ⟨0#3, 0#8, 0#3, 0#16, false⟩ = .ok .idle :=
  ⟨rfl, rfl, rfl⟩
/-- For ReadPortsShowTheStoredState and OperandReadsGiveTheStoredState: every clause at once in the first state, and
after an unspecified reset A and C alone (program P7). -/
theorem witness_specifiedReads :
    (start 0xFF 0 0 0 0 0 0x80 0xF0).allSpecified ∧
      p7.unwritten.a = false ∧ p7.unwritten.get .C = false ∧ p7.unwritten.b = true ∧
      ({ p7 with unwrittenFlags := ⟨true, true, true, false⟩ } : State).unwrittenFlags.get .C = false :=
  ⟨⟨rfl, rfl⟩, rfl, rfl, rfl, rfl⟩
/-- For Set16Result: the cycle of its error clause. -/
theorem witness_reservedPairCycle :
    (before (.host 3#3 7#3 0xFFFF#16) State.reset).inputs = PortInput.host 3#3 7#3 0xFFFF#16 :: [] ∧
      (PortInput.host 3#3 7#3 0xFFFF#16).rst = false ∧ (PortInput.host 3#3 7#3 0xFFFF#16).opKind = 3#3 ∧
      (PortInput.host 3#3 7#3 0xFFFF#16).sel.extractLsb' 0 2 = 3#2 := ⟨rfl, rfl, rfl, by decide⟩
theorem witness_stepHolds : State.reset.inputs = [] := rfl
/-- For ResetWinsAndGivesTheResetValues: the cycle, and one state for each mode. -/
theorem witness_resetCycle :
    (before ⟨1#3, 0x01#8, 0#3, 0#16, true⟩ State.reset).inputs = ⟨1#3, 0x01#8, 0#3, 0#16, true⟩ :: [] ∧
      (before ⟨1#3, 0x01#8, 0#3, 0#16, true⟩ State.reset).params.resetMode = .zero ∧
      (before ⟨1#3, 0x01#8, 0#3, 0#16, true⟩ p7).params.resetMode = .unspecified := ⟨rfl, rfl, rfl⟩
/-- For Set8Result, Set8FlagsResult, IdleChangesNothing and Set16Result: their port operations, at the last selector of
each range. -/
theorem witness_hostOps :
    (PortInput.host 2#3 6#3 0xFFFF#16).opKind = 2#3 ∧ (PortInput.host 2#3 6#3 0xFFFF#16).sel = Reg8.L.sel ∧
      (PortInput.host 2#3 7#3 0xFFFF#16).sel = 7#3 ∧ (PortInput.host 0#3 7#3 0xFFFF#16).opKind = 0#3 ∧
      (PortInput.host 3#3 6#3 0#16).sel.extractLsb' 0 2 = Pair.HL.sel.setWidth 2 ∧
      (PortInput.host 3#3 7#3 0#16).sel.extractLsb' 0 2 = 3#2 := by decide
theorem witness_initialisation :
    Reg8.A ≠ Reg8.L ∧ (Reg8.A ≠ Pair.HL.hi ∧ Reg8.A ≠ Pair.HL.lo) ∧ Pair.BC ≠ Pair.DE := by decide
/-- For ErrorsAreRecordedInTheLatch and ErrorsArePrecise: one operation for each clause, the kinds 4 and 7 included. -/
theorem witness_errors :
    (decodeCommand 0xFF#8 = none ∧ decodeCommand 0x07#8 = none) ∧
      (4 ≤ (4#3).toNat ∧ 4 ≤ (7#3).toNat) ∧ (3#3 : BitVec 3).extractLsb' 0 2 = 3#2 ∧
      decode ⟨4#3, 0#8, 0#3, 0#16, false⟩ = .error (.reservedOpKind 4#3) := ⟨by decide, by decide, by decide, rfl⟩
/-- For StatusPortLayout: a latch with each of the four causes, the information at its largest where it is free. -/
theorem witness_causes :
    (ErrLatch.mk .noError 0#8).cause = .noError ∧ (ErrLatch.mk .illegalCommand 0xFF#8).cause = .illegalCommand ∧
      (ErrLatch.mk .reservedOpKind 7#8).cause = .reservedOpKind ∧
      (ErrLatch.mk .reservedPair 3#8).cause = .reservedPair := by decide
/-- For LatchIsSticky: its first clause, a latched error that a reset clears. -/
theorem witness_latchCleared :
    (match step (before ⟨0#3, 0#8, 0#3, 0#16, true⟩ { State.reset with err := ⟨.reservedPair, 3#8⟩ }) with
      | .next t => decide (t.err ≠ ⟨.reservedPair, 3#8⟩)
      | .fault _ => false
      | .refused _ => false) = true := by decide
/-- For LatchIsSticky: its second clause, a clear latch that an error sets. -/
theorem witness_latchSet :
    (match step (before ⟨4#3, 0#8, 0#3, 0#16, false⟩ State.reset) with
      | .next t => decide (t.err.cause ≠ .noError)
      | .fault _ => false
      | .refused _ => false) = true := by decide
/-- For the statements about a step's next state (ErrorsDoNotAffectExecution, ErrorsArePrecise, StepKeepsTheParameters,
StepKeepsTheLatchConsistent, StepKeepsZeroModeSpecified): a step with its next state, from a state that meets both
invariants. -/
theorem witness_step :
    step twoOps = exec (.addR .B) { twoOps with inputs := [⟨0#3, 0#8, 0#3, 0#16, false⟩], cycle := 1 } ∧
      ends (step twoOps) 3 2 0 0 0 0 0 0 = true ∧ twoOps.err.consistent ∧ twoOps.zeroModeSpecified :=
  ⟨rfl, by decide, rfl, fun _ => ⟨rfl, rfl⟩⟩
/-- For StepKeepsTheLatchConsistent: a consistent latch of each other cause, at the ends of its range. -/
theorem witness_consistent :
    ErrLatch.consistent ⟨.illegalCommand, 0xFF#8⟩ ∧ ErrLatch.consistent ⟨.reservedOpKind, 4#8⟩ ∧
      ErrLatch.consistent ⟨.reservedOpKind, 7#8⟩ ∧ ErrLatch.consistent ⟨.reservedPair, 3#8⟩ :=
  ⟨(by decide : decodeCommand 0xFF#8 = none), ⟨by decide, by decide⟩, ⟨by decide, by decide⟩, rfl⟩
/-- For ErrorsArePrecise: the error cycle it is about. -/
theorem witness_errorCycle :
    (before ⟨1#3, 0xC0#8, 0#3, 0#16, false⟩ State.reset).inputs = ⟨1#3, 0xC0#8, 0#3, 0#16, false⟩ :: [] ∧
      decode ⟨1#3, 0xC0#8, 0#3, 0#16, false⟩ = .error (.illegalCommand 0xC0#8) := ⟨rfl, rfl⟩
/-- For FaultViewAgreesWithTheLatch: a clear latch and no reset among the operations. -/
theorem witness_faultView : twoOps.err.cause = .noError ∧ NoReset twoOps :=
  ⟨rfl, by intro p hp; simp [twoOps] at hp; rcases hp with rfl | rfl <;> rfl⟩
/-- For NoInstructionReadsZNH: an instruction with its next state. -/
theorem witness_readsZNH : exec .idle State.reset = .next State.reset := rfl
/-- For AdcResult, SubResult, SbcResult, CpResult, IncResult, DecResult, AddhlResult and AddhlDatapathWithAnyOperand, whose
hypotheses only name the operands: the numbers of one state. -/
theorem witness_operands :
    255 = ((start 0xFF 0x0F 0 0 0 0x80 0 0x10).readReg .left .A).toNat ∧
      15 = ((start 0xFF 0x0F 0 0 0 0x80 0 0x10).readReg .right .B).toNat ∧
      16 = (15 + carryNumber (start 0xFF 0x0F 0 0 0 0x80 0 0x10)) % 256 ∧
      32768 = ((start 0xFF 0x0F 0 0 0 0x80 0 0x10).readPair .left .HL).toNat ∧
      32768 = ((start 0xFF 0x0F 0 0 0 0x80 0 0x10).readPair .right .HL).toNat ∧
      4096 = halfModulus (start 0xFF 0x0F 0 0 0 0x80 0 0x10).params.hc16Mask := by decide
/-- For AdcAgainstTheOneStepSum and SbcAgainstTheOneStepDifference: mode `unsigned`, low nibble 0xF and carry-in 1. -/
theorem witness_oneStep :
    (start 0xFF 0x0F 0 0 0 0 0 0x10).params.carryMode = .unsigned ∧
      255 = ((start 0xFF 0x0F 0 0 0 0 0 0x10).readReg .left .A).toNat ∧
      15 = ((start 0xFF 0x0F 0 0 0 0 0 0x10).readReg .right .B).toNat ∧ 15 % 16 = 15 ∧
      (start 0xFF 0x0F 0 0 0 0 0 0x10).carryIn = true := by decide
/-- For AddThenSubRestoresA and AccumulatorAgainstItself: specified operands. -/
theorem witness_specified :
    Reg8.B ≠ Reg8.A ∧ State.reset.unwritten.get .B = false ∧ State.reset.unwritten.get .A = false := by decide

end Sys2Proof.Tests
end

/-! # The error latch (spec/10_state.md R38, spec/60_exceptions.md R222 to R226) -/

namespace Sys2Proof

/-- Only the code 3 selects no pair (R81). -/
theorem pairOfSel_eq_none {sel : BitVec 2} (h : pairOfSel sel = none) : sel = 3#2 := by
  revert sel
  decide

/-- What can fail to decode: an EXEC with an illegal word, a reserved kind, or a SET16 with pair selector 3 (R226). -/
theorem decode_error_cases {p : PortInput} {e : PortError} (h : decode p = .error e) :
    (p.opKind.toNat = 1 ∧ decodeCommand p.cmd = none ∧ e = .illegalCommand p.cmd) ∨
    (4 ≤ p.opKind.toNat ∧ e = .reservedOpKind p.opKind) ∨
    (p.opKind.toNat = 3 ∧ p.sel.extractLsb' 0 2 = 3#2 ∧ e = .reservedPair 3#2) := by
  unfold decode at h
  split at h
  case h_1 => cases h
  case h_2 hk =>
    cases hc : decodeCommand p.cmd with
    | some i => simp [hc] at h
    | none => simp only [hc, Except.error.injEq] at h; exact .inl ⟨hk, rfl, h.symm⟩
  case h_3 => split at h <;> cases h
  case h_4 hk =>
    cases hs : pairOfSel (p.sel.extractLsb' 0 2) with
    | some pr => simp [hs] at h
    | none =>
      have h3 := pairOfSel_eq_none hs
      simp only [hs, Except.error.injEq] at h
      exact .inr (.inr ⟨hk, h3, h3 ▸ h.symm⟩)
  case h_5 h0 h1 h2 h3 =>
    have hkind : 4 ≤ p.opKind.toNat := by
      simp only [imp_false] at h0 h1 h2 h3
      omega
    cases h
    exact .inr (.inl ⟨hkind, rfl⟩)

end Sys2Proof

namespace Sys2Proof.Machine

/-- What an operation that does not decode records is a latch the block can hold (R226). -/
theorem latchOf_consistent {p : PortInput} {e : PortError} (h : decode p = .error e) : (latchOf e).consistent := by
  obtain ⟨-, hnone, rfl⟩ | ⟨hkind, rfl⟩ | ⟨-, -, rfl⟩ := decode_error_cases h
  · exact hnone
  · have hlt := p.opKind.isLt
    have hinfo : (p.opKind.setWidth 8).toNat = p.opKind.toNat := by
      rw [BitVec.toNat_setWidth]; omega
    show 4 ≤ (p.opKind.setWidth 8).toNat ∧ (p.opKind.setWidth 8).toNat ≤ 7
    omega
  · rfl

/-- What a step can do to the latch: keep it, clear it in a reset cycle, or record an error in a clear one (R224). -/
theorem step_err_cases {s t : State} (h : step s = .next t) :
    t.err = s.err ∨
    (∃ p rest, s.inputs = p :: rest ∧ p.rst = true ∧ t.err = ⟨.noError, 0#8⟩) ∨
    (s.err.cause = .noError ∧
      ∃ p rest e, s.inputs = p :: rest ∧ p.rst = false ∧ decode p = .error e ∧ t.err = latchOf e) := by
  obtain ⟨-, rfl⟩ | ⟨p, rest, hin, ⟨hr, rfl⟩ | ⟨-, i, -, rfl⟩ | ⟨hr, e, he, rfl⟩⟩ := step_cases h
  · exact .inl rfl
  · exact .inr (.inl ⟨p, rest, hin, hr, rfl⟩)
  · obtain ⟨herr, -⟩ := afterInstr_outside (s.consume rest) i
    exact .inl herr
  · by_cases hc : s.err.cause = .noError
    · exact .inr (.inr ⟨hc, p, rest, e, hin, hr, he, by simp [hc]⟩)
    · exact .inl (by simp [hc])

end Sys2Proof.Machine

namespace Sys2Proof.Proofs

open Sys2Proof.Machine Sys2Proof.Claims

/-- Settles O41: a kept latch is consistent by hypothesis, a cleared one by its value, and a recorded one because its
error comes from the decoder. -/
theorem stepKeepsTheLatchConsistent : Obligations.StepKeepsTheLatchConsistent := by
  intro s t hs h
  obtain hkeep | ⟨-, -, -, -, hclear⟩ | ⟨-, _, _, e, -, -, he, hrec⟩ := step_err_cases h
  · rwa [hkeep]
  · rw [hclear]; rfl
  · rw [hrec]; exact latchOf_consistent he

/-- Settles O34, from the three things a step can do to the latch. -/
theorem latchIsSticky : Obligations.LatchIsSticky := by
  intro s t h
  obtain hkeep | ⟨p, rest, hin, hr, hclear⟩ | ⟨hnone, hrec⟩ := step_err_cases h
  · exact ⟨fun _ hne => absurd hkeep hne, fun hs ht => absurd (hkeep ▸ hs) ht⟩
  · exact ⟨fun _ _ => ⟨p, rest, hin, hr, hclear⟩, fun _ ht => absurd (by rw [hclear]) ht⟩
  · exact ⟨fun hs _ => absurd hnone hs, fun _ _ => hrec⟩

/-- Settles O40: no case of a step writes the parameters. -/
theorem stepKeepsTheParameters : Obligations.StepKeepsTheParameters := by
  intro s t h
  obtain ⟨-, rfl⟩ | ⟨p, rest, -, ⟨-, rfl⟩ | ⟨-, i, -, rfl⟩ | ⟨-, e, -, rfl⟩⟩ := step_cases h
  · rfl
  · rfl
  · obtain ⟨-, hparams, -⟩ := afterInstr_outside (s.consume rest) i
    exact hparams
  · exact (s.consume rest).raiseError_params e

end Sys2Proof.Proofs

/-! # What an instruction writes (spec/10_state.md R21, R22, R30, R35) -/

namespace Sys2Proof.Machine

open Sys2Proof.Claims

theorem Frame.refl (s : State) : Frame [] [] s s :=
  ⟨fun _ _ => ⟨rfl, rfl⟩, fun _ _ => ⟨rfl, rfl⟩, rfl, rfl, rfl, rfl⟩

/-- One write after another writes what the two write. -/
theorem Frame.trans {rs rs' : List Reg8} {fs fs' : List Flag} {s t u : State} (h : Frame rs fs s t)
    (h' : Frame rs' fs' t u) : Frame (rs ++ rs') (fs ++ fs') s u := by
  obtain ⟨hr, hf, herr, hpar, hcyc, hin⟩ := h
  obtain ⟨hr', hf', herr', hpar', hcyc', hin'⟩ := h'
  refine ⟨fun r hmem => ?_, fun x hmem => ?_, herr'.trans herr, hpar'.trans hpar, hcyc'.trans hcyc, hin'.trans hin⟩
  · rw [List.mem_append, not_or] at hmem
    obtain ⟨hval, hmark⟩ := hr r hmem.1
    obtain ⟨hval', hmark'⟩ := hr' r hmem.2
    exact ⟨hval'.trans hval, hmark'.trans hmark⟩
  · rw [List.mem_append, not_or] at hmem
    obtain ⟨hval, hmark⟩ := hf x hmem.1
    obtain ⟨hval', hmark'⟩ := hf' x hmem.2
    exact ⟨hval'.trans hval, hmark'.trans hmark⟩

theorem frame_addToHL (s : State) (v : Word16) : Frame [.H, .L] allFlags s (s.addToHL v) :=
  (frame_writePair s .HL _).trans (frame_writeFlags _ _)

/-- 8-bit INC and DEC write the flags that `INC8_CARRY` lets them write (R155, R159). -/
theorem frame_writeStepped (s : State) (r : Reg8) (v : Byte) (f : Flags) :
    Frame [r] (flagsWritten s.params.inc8Carry (.incR r)) s (s.writeStepped r v f) := by
  cases hm : s.params.inc8Carry with
  | overwrite => exact frame_writeStepped_overwrite s r v f
  | preserve => exact frame_writeStepped_preserve s r v f hm

/-- Every instruction stays within the spec's tables of writers. -/
theorem afterInstr_frame (i : Instr) (s : State) :
    Frame (regsWritten i) (flagsWritten s.params.inc8Carry i) s (afterInstr s i) := by
  cases i with
  | addR | adcR | subR | sbcR | andR | orR | xorR => exact frame_writeAcc s _ _
  | cpR => exact frame_writeFlags s _
  | incR r | decR r => exact frame_writeStepped s r _ _
  | ccfR => exact frame_writeFlagsKeepZ s _
  | addhlHL => exact frame_addToHL s _
  | incBC | decBC => exact frame_writePair s .BC _
  | incHL | decHL => exact frame_writePair s .HL _
  | idle => exact Frame.refl s
  | set8R r v => exact frame_writeReg s r v
  | set8F b => exact frame_writeFlags s _
  | set16 p v => exact frame_writePair s p v

end Sys2Proof.Machine

namespace Sys2Proof.Proofs

open Sys2Proof.Machine Sys2Proof.Claims

/-- Settles O38, by the frame of each instruction. -/
theorem instructionsWriteOnlyTheirOwn : Obligations.InstructionsWriteOnlyTheirOwn :=
  fun i s => ⟨afterInstr s i, exec_eq_next i s, afterInstr_frame i s⟩

end Sys2Proof.Proofs

/-! # Other values of Z, N and H (spec/10_state.md R34)

A read gives the same in a state with other values of Z, N and H, and a write of flags covers them or passes them on. -/

namespace Sys2Proof.Machine

open Sys2Proof.Claims

/-- The flags `new` where an operation wrote one, and `old` elsewhere. -/
def Flags.updated (written : List Flag) (new old : Flags) : Flags where
  z := if .Z ∈ written then new.z else old.z
  n := if .N ∈ written then new.n else old.n
  h := if .H ∈ written then new.h else old.h
  c := if .C ∈ written then new.c else old.c

@[simp] theorem Flags.get_updated (written : List Flag) (new old : Flags) (x : Flag) :
    (Flags.updated written new old).get x = if x ∈ written then new.get x else old.get x := by
  cases x <;> rfl

section
variable (s : State) (f u : Flags)

@[simp] theorem withZNH_flags_get (x : Flag) :
    (withZNH s f u).flags.get x = if x = .C then s.flags.get x else f.get x := by
  cases x <;> rfl

@[simp] theorem withZNH_unwrittenFlags_get (x : Flag) :
    (withZNH s f u).unwrittenFlags.get x = if x = .C then s.unwrittenFlags.get x else u.get x := by
  cases x <;> rfl

/-- 8-bit INC and DEC cover Z, N and H in both settings of `INC8_CARRY` (R155, R159). -/
theorem writeStepped_withZNH (r : Reg8) (v : Byte) (g : Flags) :
    (withZNH s f u).writeStepped r v g = s.writeStepped r v g := by
  unfold State.writeStepped withZNH
  cases s.params.inc8Carry <;> rfl

/-- An instruction gives the next state it would have given, with the other values of Z, N and H kept in those of the
three that it does not write. -/
theorem afterInstr_withZNH (i : Instr) (ws : List Flag) (hws : ws = flagsWritten s.params.inc8Carry i) :
    afterInstr (withZNH s f u) i =
      withZNH (afterInstr s i) (.updated ws (afterInstr s i).flags f)
        (.updated ws (afterInstr s i).unwrittenFlags u) := by
  subst hws
  cases i with
  -- The flags are all written.
  | addR | adcR | subR | sbcR | andR | orR | xorR | cpR | addhlHL | set8F => rfl
  -- Z, N and H are written.
  | incR r | decR r =>
    show (withZNH s f u).writeStepped r _ _ = _
    rw [writeStepped_withZNH]
    cases s.params.inc8Carry <;> rfl
  -- N, H and C are written.
  | ccfR => rfl
  -- No flag is written.
  | incBC | incHL | decBC | decHL | idle | set8R | set16 => rfl

end
end Sys2Proof.Machine

namespace Sys2Proof.Proofs

open Sys2Proof.Machine Sys2Proof.Claims

/-- Settles O39: a flag the instruction writes is the same in both next states, and one it does not write is in each the
flag from before, by O38's frame. -/
theorem noInstructionReadsZNH : Obligations.NoInstructionReadsZNH := by
  intro i s t f u h
  rw [exec_eq_next, Host.Outcome.next.injEq] at h
  subst h
  refine ⟨_, exec_eq_next i _, ?_⟩
  rw [afterInstr_withZNH s f u i _ rfl]
  refine ⟨rfl, rfl, rfl, rfl, ⟨rfl, rfl, rfl, rfl⟩, fun x => ?_⟩
  by_cases hx : x ∈ flagsWritten s.params.inc8Carry i
  · exact .inl (by simp [hx])
  · obtain ⟨-, hflags, -⟩ := afterInstr_frame i s
    obtain ⟨hkept, -⟩ := hflags x hx
    exact .inr ⟨hkept, by simp [hx, hkept], hx⟩

end Sys2Proof.Proofs

/-! # The packed flags byte, the operand reads and the reset state (spec/10_state.md R23 to R33, R42) -/

namespace Sys2Proof.Machine

theorem getLsbD_flagBit (f : Bool) {bit i : Nat} (hbit : bit < 8) :
    (flagBit f bit).getLsbD i = (f && decide (i = bit)) := by
  cases f with
  | false => simp [flagBit]
  | true =>
    rw [Bool.eq_iff_iff]
    simp only [flagBit, if_true, BitVec.getLsbD_shiftLeft, BitVec.getLsbD_one, Nat.ofNat_pos, decide_true,
      Bool.true_and, Bool.and_eq_true, decide_eq_true_eq, Bool.not_eq_true', decide_eq_false_iff_not]
    omega

/-- The flags' bits in the packed byte (R31). -/
theorem getLsbD_pack (f : Flags) (i : Nat) :
    (pack f).getLsbD i =
      ((f.z && decide (i = 7)) || (f.n && decide (i = 6)) || (f.h && decide (i = 5)) || (f.c && decide (i = 4))) := by
  simp [pack, getLsbD_flagBit]

theorem unpack_pack (f : Flags) : unpack (pack f) = f := by
  simp only [unpack, getLsbD_pack]
  simp

/-- The lower nibble is not kept (R33). -/
theorem pack_unpack (b : Byte) : pack (unpack b) = b &&& 0xF0#8 := by
  apply BitVec.eq_of_getLsbD_eq
  intro i hi
  rw [getLsbD_pack, BitVec.getLsbD_and]
  interval_cases i <;> simp [unpack]

/-- The read port shows the stored flags where all four are specified. -/
theorem State.portFlags_specified (s : State) (k : Nat) (h : s.unwrittenFlags = ⟨false, false, false, false⟩) :
    s.portFlags k = s.flags := by
  simp [State.portFlags, State.readFlag, h, Flags.get]

/-- Selector 7 of the 8-bit read port is the packed flags byte (R80, R204). -/
theorem State.rd8_flags (s : State) (k : Nat) : s.rd8 k 7#3 = pack (s.portFlags k) := rfl

/-- The high byte of a pair read is the read of its first-named register (R24). -/
theorem State.readPair_hi (s : State) (site : ReadSite) (p : Pair) :
    (s.readPair site p).extractLsb' 8 8 = s.readReg site p.hi :=
  (halves_append _ _).1

/-- The low byte of a pair read is the read of its second register (R24). -/
theorem State.readPair_lo (s : State) (site : ReadSite) (p : Pair) :
    (s.readPair site p).extractLsb' 0 8 = s.readReg site p.lo :=
  (halves_append _ _).2

/-- The high byte of a pair read is the stored register under that register's mark alone. -/
theorem State.readPair_hi_specified (s : State) (site : ReadSite) (p : Pair) (h : s.unwritten.get p.hi = false) :
    (s.readPair site p).extractLsb' 8 8 = s.regs.get p.hi :=
  (s.readPair_hi site p).trans (s.readReg_specified site p.hi h)

/-- The low byte of a pair read is the stored register under that register's mark alone. -/
theorem State.readPair_lo_specified (s : State) (site : ReadSite) (p : Pair) (h : s.unwritten.get p.lo = false) :
    (s.readPair site p).extractLsb' 0 8 = s.regs.get p.lo :=
  (s.readPair_lo site p).trans (s.readReg_specified site p.lo h)

end Sys2Proof.Machine

namespace Sys2Proof.Proofs

open Sys2Proof.Machine Sys2Proof.Claims

/-- Settles O30: the packed byte has each flag at its own bit and nothing below, and SET8 F specifies all four flags. -/
theorem flagsByteRoundTrip : Obligations.FlagsByteRoundTrip := by
  refine ⟨unpack_pack, pack_unpack, fun s b k => ⟨s.writeFlags (unpack b), rfl, ?_⟩⟩
  rw [State.rd8_flags, State.portFlags_specified _ k rfl]
  exact pack_unpack b

/-- Settles O54, from what one read of a register, a flag or a pair's half gives. -/
theorem operandReadsGiveTheStoredState : Obligations.OperandReadsGiveTheStoredState := by
  refine ⟨fun s site => ?_, State.readReg_specified, State.readFlag_specified, State.carryIn_specified,
    fun s site => ?_⟩
  · have reg := s.readReg_specified site
    have flag := s.readFlag_specified site
    exact ⟨reg .A, reg .B, reg .C, reg .D, reg .E, reg .H, reg .L, flag .Z, flag .N, flag .H, flag .C⟩
  · have hi := s.readPair_hi_specified site
    have lo := s.readPair_lo_specified site
    exact ⟨hi .BC, lo .BC, hi .DE, lo .DE, hi .HL, lo .HL⟩

/-- Settles O10: each register of the reset state is 0, the other fields are the literals of `State.reset`. -/
theorem resetStateValues : Obligations.ResetStateValues := by
  refine ⟨fun r => ?_, ?_, rfl, rfl, rfl⟩
  · cases r <;> exact ⟨rfl, rfl⟩
  · simp [FlagsAre, State.reset]

end Sys2Proof.Proofs

/-! # Two operations back to back (spec/20_memory.md R58, spec/70_reset_and_hazards.md R262) -/

namespace Sys2Proof.Machine

/-- A cycle whose operation decodes, without reset, executes its instruction (R70, R108). -/
theorem step_of_decode {s : State} {p : PortInput} {rest : List PortInput} {i : Instr} (hin : s.inputs = p :: rest)
    (hrst : p.rst = false) (hdec : decode p = .ok i) : step s = exec i (s.consume rest) := by
  simp [step, nextCycle, hin, clockEdge, hrst, hdec]

/-- A run goes on from the state after its first step. -/
theorem run_succ_of_step {s t : State} (h : step s = .next t) (k : Nat) :
    Host.Core.run core (k + 1) s = Host.Core.run core k t := by
  have hcore : core.step s = .next t := h
  simp only [Host.Core.run, hcore]

end Sys2Proof.Machine

namespace Sys2Proof.Proofs

open Sys2Proof.Machine Sys2Proof.Claims

/-- Settles O8: an instruction leaves the pending operations and the cycle's number alone, so the second step takes the
second operation in the very state that the first instruction left. -/
theorem backToBackOperations : Obligations.BackToBackOperations := by
  intro s p q rest i j hin hp hq hi hj
  let t := afterInstr (s.consume (q :: rest)) i
  have hfirst : exec i (s.consume (q :: rest)) = .next t := exec_eq_next i _
  obtain ⟨-, -, hcycle, hinputs⟩ : _ ∧ _ ∧ t.cycle = s.cycle + 1 ∧ t.inputs = q :: rest :=
    afterInstr_outside (s.consume (q :: rest)) i
  have htaken : t.consume rest = { t with inputs := rest, cycle := s.cycle + 2 } := by
    rw [State.consume, hcycle]
  have hsecond := exec_eq_next j (t.consume rest)
  refine ⟨t, afterInstr (t.consume rest) j, hfirst, htaken ▸ hsecond, ?_⟩
  calc Host.Core.run core 2 s
      = Host.Core.run core 1 t := run_succ_of_step ((step_of_decode hin hp hi).trans hfirst) 1
    _ = Host.Core.run core 0 _ := run_succ_of_step ((step_of_decode hinputs hq hj).trans hsecond) 0

end Sys2Proof.Proofs

/-! # 16-bit and 8-bit accesses of one pair (spec/20_memory.md R53, R54) -/

namespace Sys2Proof

@[simp] theorem pairOfSel_sel (p : Pair) : pairOfSel (p.sel.setWidth 2) = some p := by
  cases p <;> rfl

end Sys2Proof

namespace Sys2Proof.Machine

/-- The 8-bit read port with a register's selector reads that register (R204). -/
@[simp] theorem State.rd8_sel (s : State) (k : Nat) (r : Reg8) : s.rd8 k r.sel = s.readReg (.port k) r := by
  simp [State.rd8]

/-- The 16-bit read port with a pair's selector reads that pair (R207). -/
@[simp] theorem State.rd16_sel (s : State) (k : Nat) (p : Pair) :
    s.rd16 k (p.sel.setWidth 2) = s.readPair (.port k) p := by
  simp [State.rd16]

theorem State.readReg_hi_writePair (s : State) (site : ReadSite) (p : Pair) (v : Word16) :
    (s.writePair p v).readReg site p.hi = v.extractLsb' 8 8 := by
  rw [← State.readPair_hi, State.readPair_writePair]

theorem State.readReg_lo_writePair (s : State) (site : ReadSite) (p : Pair) (v : Word16) :
    (s.writePair p v).readReg site p.lo = v.extractLsb' 0 8 := by
  rw [← State.readPair_lo, State.readPair_writePair]

/-- Writing a pair's two registers is writing the pair (R25). -/
theorem State.writeReg_hi_lo (s : State) (p : Pair) (v w : Byte) :
    (s.writeReg p.hi v).writeReg p.lo w = s.writePair p (v ++ w) := by
  obtain ⟨hhi, hlo⟩ := halves_append v w
  rw [State.writePair, hhi, hlo]

end Sys2Proof.Machine

namespace Sys2Proof.Proofs

open Sys2Proof.Machine Sys2Proof.Claims

/-- Settles O29: a pair and its two registers are one storage, the first-named register the high byte. -/
theorem mixedWidthAccess : Obligations.MixedWidthAccess := by
  intro s p k
  constructor
  · intro v
    refine ⟨s.writePair p v, rfl, ?_, ?_⟩
    · rw [State.rd8_sel, State.readReg_hi_writePair]
    · rw [State.rd8_sel, State.readReg_lo_writePair]
  · intro v w
    refine ⟨(s.writeReg p.hi v).writeReg p.lo w, rfl, ?_⟩
    rw [State.rd16_sel, State.writeReg_hi_lo, State.readPair_writePair]

end Sys2Proof.Proofs

/-! # The encoder and the decoder against each other (spec/30_encoding.md R70 to R82)

Each code table is read back in the direction that Laws/Decode.lean does not have: a code that names something is that
thing's code. -/

namespace Sys2Proof

/-- An instruction code that is not reserved is its instruction's code (R73). -/
theorem code_of_opOfCode : ∀ (c : BitVec 4), ∀ o ∈ opOfCode c, o.code = c := by decide

/-- A target code that is not reserved is its target's code (R74). -/
theorem code_of_targetOfCode : ∀ (c : BitVec 4), ∀ t ∈ targetOfCode c, t.code = c := by decide

/-- A register selector other than F's is its register's code (R80). -/
theorem sel_of_reg8OfSel : ∀ (sel : BitVec 3), ∀ r ∈ reg8OfSel sel, r.sel = sel := by decide

/-- Only the code 7 selects F (R80). -/
theorem reg8OfSel_eq_none : ∀ {sel : BitVec 3}, reg8OfSel sel = none → sel = 7#3 := by decide

/-- A pair selector that is not reserved is its pair's code (R81). -/
theorem sel_of_pairOfSel : ∀ (sel : BitVec 2), ∀ p ∈ pairOfSel sel, p.sel = sel.setWidth 3 := by decide

/-- The reserved instruction codes (R73). -/
theorem opOfCode_eq_none : ∀ {c : BitVec 4}, opOfCode c = none ↔ 12 ≤ c.toNat := by decide

/-- The reserved target codes (R74). -/
theorem targetOfCode_eq_none : ∀ {c : BitVec 4}, targetOfCode c = none ↔ 9 ≤ c.toNat := by decide

theorem Command.word_mk (o : Op) (t : Target) : Command.word ⟨o, t⟩ = o.code ++ t.code := rfl

/-- A word spells a pair exactly when it is the pair's word (R72). -/
theorem commandOfWord_eq_some {cmd : Byte} {c : Command} : commandOfWord cmd = some c ↔ c.word = cmd := by
  refine ⟨fun h => ?_, fun h => h ▸ commandOfWord_word c⟩
  unfold commandOfWord at h
  split at h
  case h_1 o t ho ht =>
    cases h
    have hop : o.code = cmd.extractLsb' 4 4 := code_of_opOfCode _ o ho
    have htarget : t.code = cmd.extractLsb' 0 4 := code_of_targetOfCode _ t ht
    rw [Command.word_mk, hop, htarget]
    exact BitVec.extractLsb'_append_extractLsb'
  case h_2 => cases h
  case h_3 => cases h

/-- A pair and the instruction it names determine each other (R76). -/
theorem Command.instr?_eq_some {c : Command} {i : Instr} : c.instr? = some i ↔ i.command? = some c := by
  refine ⟨fun h => ?_, Instr.instr?_of_command?⟩
  obtain ⟨o, t⟩ := c
  cases t with
  | reg r => cases o <;> cases h <;> rfl
  | bc | hl => cases o <;> cases h <;> rfl

/-- A pair names no instruction exactly when it is not legal (R78). -/
theorem Command.instr?_eq_none {c : Command} : c.instr? = none ↔ c.wf = false := by
  rw [← c.instr?_isSome, Option.isSome_eq_false_iff, Option.isNone_iff_eq_none]

theorem decodeCommand_word (c : Command) : decodeCommand c.word = c.instr? := by
  rw [decodeCommand, commandOfWord_word, Option.bind_some]

/-- A command word decodes to an instruction exactly when it is the word of the instruction's pair (R77). -/
theorem decodeCommand_eq_some {cmd : Byte} {i : Instr} :
    decodeCommand cmd = some i ↔ ∃ c, i.command? = some c ∧ c.word = cmd := by
  simp only [decodeCommand, Option.bind_eq_some_iff, commandOfWord_eq_some, Command.instr?_eq_some, and_comm]

theorem decode_exec {cmd : Byte} {i : Instr} (h : decodeCommand cmd = some i) : decode (.exec cmd) = .ok i := by
  simp [decode, PortInput.exec, h]

theorem decode_encode (i : Instr) : decode (encode i) = .ok i := by
  cases hc : i.command? with
  | some c =>
    rw [encode_of_command? hc]
    exact decode_exec (decodeCommand_eq_some.mpr ⟨c, hc, rfl⟩)
  | none =>
    cases i with
    | idle => rfl
    | set8R r v => simp [decode, encode, PortInput.host, extract_setWidth_byte]
    | set8F b => simp [decode, encode, PortInput.host, reg8OfSel, extract_setWidth_byte]
    | set16 p v => cases p <;> rfl
    | _ => cases hc

/-- What decodes, by the operation's kind: IDLE, an EXEC of the instruction's command word, a SET8 of a register or of
F, or a SET16 (R71). -/
theorem decode_ok_cases {p : PortInput} {i : Instr} (h : decode p = .ok i) :
    (p.opKind.toNat = 0 ∧ i = .idle) ∨
    (p.opKind.toNat = 1 ∧ ∃ c, i.command? = some c ∧ c.word = p.cmd) ∨
    (p.opKind.toNat = 2 ∧ ∃ r : Reg8, r.sel = p.sel ∧ i = .set8R r (p.data.extractLsb' 0 8)) ∨
    (p.opKind.toNat = 2 ∧ p.sel = 7#3 ∧ i = .set8F (p.data.extractLsb' 0 8)) ∨
    (p.opKind.toNat = 3 ∧ ∃ pr : Pair, pr.sel = (p.sel.extractLsb' 0 2).setWidth 3 ∧ i = .set16 pr p.data) := by
  unfold decode at h
  split at h
  case h_1 hk => cases h; exact .inl ⟨hk, rfl⟩
  case h_2 hk =>
    split at h <;> cases h
    next hc => exact .inr (.inl ⟨hk, decodeCommand_eq_some.mp hc⟩)
  case h_3 hk =>
    split at h <;> cases h
    next r hr => exact .inr (.inr (.inl ⟨hk, r, sel_of_reg8OfSel _ r hr, rfl⟩))
    next hF => exact .inr (.inr (.inr (.inl ⟨hk, reg8OfSel_eq_none hF, rfl⟩)))
  case h_4 hk =>
    split at h <;> cases h
    next pr hpr => exact .inr (.inr (.inr (.inr ⟨hk, pr, sel_of_pairOfSel _ pr hpr, rfl⟩)))
  case h_5 => cases h

theorem encode_of_decode {p : PortInput} {i : Instr} (h : decode p = .ok i) : encode i = p.canonical := by
  obtain ⟨hk, rfl⟩ | ⟨hk, c, hc, hw⟩ | ⟨hk, r, hr, rfl⟩ | ⟨hk, hF, rfl⟩ | ⟨hk, pr, hpr, rfl⟩ := decode_ok_cases h
  · simp [PortInput.canonical, hk, encode]
  · simp [PortInput.canonical, hk, encode_of_command? hc, hw]
  · simp [PortInput.canonical, hk, encode, hr]
  · simp [PortInput.canonical, hk, encode, hF]
  · simp [PortInput.canonical, hk, encode, hpr]

/-- The 16-bit targets by their codes (R75). -/
theorem Target.is8_eq_false {t : Target} : t.is8 = false ↔ t.code = 0x7#4 ∨ t.code = 0x8#4 := by
  cases t with
  | reg r => cases r <;> decide
  | bc | hl => decide

/-- The targets that ADDHL does not take, by their codes (R76). -/
theorem Target.ne_hl_iff {t : Target} : t ≠ .hl ↔ t.code.toNat ≤ 6 ∨ t.code = 0x7#4 := by
  cases t with
  | reg r => cases r <;> decide
  | bc | hl => decide

/-- A word of the table that is an instruction's encoding decodes to that instruction. -/
theorem decodeTableWord_of_encode {nbits w : Nat} {i : Instr} (h : tableInput nbits w = encode i) :
    decodeTableWord nbits w = some i := by
  rw [decodeTableWord, h, decode_encode]

/-- A word with a reserved code is illegal: the last two classes of R78. -/
theorem decodeCommand_reserved {op t : BitVec 4} (h : 12 ≤ op.toNat ∨ 9 ≤ t.toNat) :
    decodeCommand (op ++ t) = none := by
  rw [decodeCommand, commandOfWord, BitVec.extractLsb'_append_eq_left, BitVec.extractLsb'_append_eq_right]
  obtain hop | ht := h
  · rw [opOfCode_eq_none.mpr hop]; cases targetOfCode t <;> rfl
  · rw [targetOfCode_eq_none.mpr ht]; cases opOfCode op <;> rfl

/-- A word without a reserved code is the word of a pair (R72). -/
theorem exists_command_of_not_reserved {op t : BitVec 4} (h : ¬(12 ≤ op.toNat ∨ 9 ≤ t.toNat)) :
    ∃ (o : Op) (u : Target), o.code = op ∧ u.code = t := by
  rw [← opOfCode_eq_none, ← targetOfCode_eq_none, not_or] at h
  obtain ⟨o, ho⟩ := Option.ne_none_iff_exists'.mp h.1
  obtain ⟨u, hu⟩ := Option.ne_none_iff_exists'.mp h.2
  exact ⟨o, u, code_of_opOfCode op o ho, code_of_targetOfCode t u hu⟩

/-- A word without a reserved code is illegal exactly in the first three classes of R78. -/
theorem decodeCommand_word_eq_none (c : Command) : decodeCommand c.word = none ↔
    (c.op ≠ .addhl ∧ c.op ≠ .inc ∧ c.op ≠ .dec ∧ c.target.is8 = false) ∨ (c.op = .addhl ∧ c.target ≠ .hl) := by
  rw [decodeCommand_word, Command.instr?_eq_none, Command.wf]
  cases c.op <;> simp

end Sys2Proof

namespace Sys2Proof.Proofs

/-- Settles O1: the encoding of an EXEC instruction is its pair's word, and the port's selectors and data read back.
The operand types shut every ill-formed instruction out, so the hypothesis is not used. -/
theorem decodeEncodeRoundTrip : Obligations.DecodeEncodeRoundTrip :=
  fun i _ => decode_encode i

/-- Settles O2, from what an operation that decodes looks like, by its kind. -/
theorem encodeOfDecodedIsCanonical : Obligations.EncodeOfDecodedIsCanonical :=
  fun _ _ => encode_of_decode

/-- The number of legal words (R76), by evaluating the decoder at each of the 256. -/
theorem legalWords_length :
    ((List.range 256).filter fun w => (decodeCommand (BitVec.ofNat 8 w)).isSome).length = 82 := by
  decide

/-- Settles O3: a word with a reserved code is in the last two classes, and any other is the word of a pair, in one of
the first three classes exactly when the pair is not legal. -/
theorem illegalWordsAreTheFiveClasses : Obligations.IllegalWordsAreTheFiveClasses := by
  refine ⟨fun op t => ?_, legalWords_length⟩
  by_cases hres : 12 ≤ op.toNat ∨ 9 ≤ t.toNat
  · exact iff_of_true (decodeCommand_reserved hres) (by omega)
  · obtain ⟨o, u, rfl, rfl⟩ := exists_command_of_not_reserved hres
    obtain ⟨-, ht⟩ := not_or.mp hres
    rw [← Command.word_mk, decodeCommand_word_eq_none, Target.is8_eq_false, Target.ne_hl_iff]
    cases o <;> simp [Op.code, ht]

/-- Settles O4: seven words of the table are their instructions' encodings, and the last three operations have a word or
inputs that no encoding has. -/
theorem writtenWordsDecode : Obligations.WrittenWordsDecode :=
  ⟨decodeTableWord_of_encode rfl, decodeTableWord_of_encode rfl, decodeTableWord_of_encode rfl,
    decodeTableWord_of_encode rfl, decodeTableWord_of_encode rfl, decodeTableWord_of_encode rfl,
    decodeTableWord_of_encode rfl, rfl, rfl, rfl⟩

end Sys2Proof.Proofs

/-! # The datapath: a step executes its operation, and SUB undoes ADD (spec/40_datapath.md R108, R110) -/

namespace Sys2Proof.Machine

/-- After an accumulator write every read of A gives the result written. -/
theorem State.readReg_writeAcc_same (s : State) (site : ReadSite) (v : Byte) (f : Flags) :
    (s.writeAcc v f).readReg site .A = v :=
  s.readReg_writeReg_same site .A v

/-- An accumulator write leaves every read of another register as it was. -/
theorem State.readReg_writeAcc_other (s : State) (site : ReadSite) {r : Reg8} (h : r ≠ .A) (v : Byte) (f : Flags) :
    (s.writeAcc v f).readReg site r = s.readReg site r :=
  s.readReg_writeReg_other site h v

/-- After an accumulator write A holds the result written. -/
theorem State.writeAcc_holds (s : State) (v : Byte) (f : Flags) : (s.writeAcc v f).holds .A v := by
  simp [State.holds]

/-- The value of `sub8` undoes the value of `add8` with the same right operand (R110). -/
theorem sub8_add8_res (m : CarryMode) (l r : Byte) : (sub8 (add8 m l r).res r).res = l :=
  BitVec.add_sub_cancel l r

end Sys2Proof.Machine

namespace Sys2Proof.Proofs

open Sys2Proof.Machine Sys2Proof.Claims

/-- Settles O48: SUB reads the sum that ADD left in A and, r not being A, the same right operand. The reads of r are equal
even where r is unspecified, since `execThen` stays in one cycle and so in one draw; that hypothesis is not used. -/
theorem addThenSubRestoresA : Obligations.AddThenSubRestoresA := by
  intro r s hr _
  let sum := add8 s.params.carryMode (s.readReg .left .A) (s.readReg .right r)
  let t := s.writeAcc sum.res (sum.flags false)
  let diff := sub8 (t.readReg .left .A) (t.readReg .right r)
  have hleft : t.readReg .left .A = sum.res := s.readReg_writeAcc_same _ _ _
  have hright : t.readReg .right r = s.readReg .right r := s.readReg_writeAcc_other _ hr _ _
  have hdiff : diff.res = s.readReg .left .A := by
    calc diff.res = (sub8 sum.res (s.readReg .right r)).res := by simp only [diff, hleft, hright]
      _ = s.readReg .left .A := sub8_add8_res _ _ _
  exact ⟨t.writeAcc diff.res (diff.flags true), rfl, hdiff ▸ t.writeAcc_holds diff.res _⟩

/-- Settles O5: the state with the operation taken is `State.consume`, which the step goes through. -/
theorem stepExecutesTheDecodedInstruction : Obligations.StepExecutesTheDecodedInstruction :=
  fun _ _ _ _ => step_of_decode

end Sys2Proof.Proofs

/-! # The 8-bit path (spec/41_alu8.md R130 to R164)

First the reasoning rules: the words of an 8-bit target, the carries in numbers, and what a state's flags are after each
of the shared writes. -/

namespace Sys2Proof

open Sys2Proof.Claims

/-- The word of an 8-bit target is the instruction's code in the high nibble and the target's in the low one (R72). -/
theorem Command.word_reg (o : Op) (r : Reg8) : Command.word ⟨o, .reg r⟩ = (o.code ++ 0#4) ||| targetByte r := by
  cases o <;> cases r <;> rfl

/-- The word `b | t`, where `b` has the code of an instruction with an 8-bit target, decodes to it. -/
theorem decodeCommand_or_targetByte {o : Op} {r : Reg8} {i : Instr} {b : Byte} (hi : i.command? = some ⟨o, .reg r⟩)
    (hb : o.code ++ 0#4 = b) : decodeCommand (b ||| targetByte r) = some i :=
  decodeCommand_eq_some.mpr ⟨_, hi, hb ▸ Command.word_reg o r⟩

end Sys2Proof

namespace Sys2Proof.Machine

open Sys2Proof.Claims

/-! ## The primitives in numbers -/

theorem ovf8_iff_carry8 (m : CarryMode) (l r : Byte) : ovf8 m l r = true ↔ carry8 m l.toNat r.toNat := by
  cases m with
  | unsigned => exact decide_eq_true_iff
  | refInt => simp only [ovf8, carry8, decide_eq_true_eq]; omega
  | refWrap => exact decide_eq_true_iff

theorem carryNumber_le_one (s : State) : carryNumber s ≤ 1 := by
  unfold carryNumber; split <;> omega

theorem carryNumber_of_carryIn {s : State} (h : s.carryIn = true) : carryNumber s = 1 :=
  if_pos h

theorem adjusted_carryIn_toNat (s : State) (v : Byte) :
    (adjusted v s.carryIn).toNat = (v.toNat + carryNumber s) % 256 :=
  adjusted_toNat v s.carryIn

theorem preCarry_carryIn (s : State) (m : CarryMode) (v : Byte) :
    preCarry m v s.carryIn = true ↔ carry8 m v.toNat (carryNumber s) := by
  have hnumber : (carryByte s.carryIn).toNat = carryNumber s := carryByte_toNat s.carryIn
  rw [preCarry, ovf8_iff_carry8, hnumber]

theorem adc8_c (m : CarryMode) (l v : Byte) (cin : Bool) : (adc8 m l v cin).c = true ↔
    carry8 m l.toNat (adjusted v cin).toNat ∨ preCarry m v cin = true := by
  rw [← ovf8_iff_carry8]
  exact Bool.or_eq_true_iff

theorem sbc8_c (m : CarryMode) (l v : Byte) (cin : Bool) : (sbc8 m l v cin).c = true ↔
    (adjusted v cin).toNat > l.toNat ∨ preCarry m v cin = true := by
  rw [← sub8_c]
  exact Bool.or_eq_true_iff

theorem sub8_self (x : Byte) : sub8 x x = ⟨0#8, true, false, false⟩ := by
  simp [sub8]

/-- The packed flags of a logic operation: Z by the result, H as forced. -/
theorem pack_logicFlags (res : Byte) (h : Bool) : pack (logicFlags res h) =
    if res = 0#8 then pack ⟨true, false, h, false⟩ else pack ⟨false, false, h, false⟩ := by
  by_cases hres : res = 0#8 <;> simp [logicFlags, hres]

/-! ## Registers and flags after the shared writes -/

theorem State.holds.holdsNat {t : State} {r : Reg8} {v : Byte} {n : Nat} (h : t.holds r v) (hn : v.toNat = n) :
    HoldsNat t r n := by
  obtain ⟨hval, hmark⟩ := h
  exact ⟨hval ▸ hn, hmark⟩

theorem RegFile.set_get {α : Type} (f : RegFile α) (r : Reg8) : f.set r (f.get r) = f := by
  cases r <;> rfl

theorem State.writeStepped_holds (s : State) (r : Reg8) (v : Byte) (f : Flags) : (s.writeStepped r v f).holds r v := by
  simp [State.holds]

theorem State.readReg_writeStepped_same (s : State) (site : ReadSite) (r : Reg8) (v : Byte) (f : Flags) :
    (s.writeStepped r v f).readReg site r = v := by
  simp [State.readReg]

/-- Of two INC or DEC writes of one register the later wins, and `preserve` keeps C through both. -/
theorem State.writeStepped_again (s : State) (r : Reg8) (v w : Byte) (f g : Flags) :
    (s.writeStepped r v f).writeStepped r w g = s.writeStepped r w g := by
  apply State.ext_fields
  case flags | unwrittenFlags => cases hm : s.params.inc8Carry <;> simp [hm]
  all_goals simp

/-- Of two CCF writes the later wins, and Z is kept through both. -/
theorem State.writeFlagsKeepZ_again (s : State) (f g : Flags) :
    (s.writeFlagsKeepZ f).writeFlagsKeepZ g = s.writeFlagsKeepZ g := rfl

/-- A CCF write specifies the carry. -/
theorem State.carryIn_writeFlagsKeepZ (s : State) (f : Flags) : (s.writeFlagsKeepZ f).carryIn = f.c := rfl

/-- A flag the instruction forces to 0. -/
theorem forcedZero_iff : false = true ↔ False :=
  iff_of_false Bool.false_ne_true id

/-- A flag the instruction forces to 1. -/
theorem forcedOne_iff : true = true ↔ True :=
  iff_of_true rfl trivial

section
variable {s t : State} {f : Flags} {z n h c : Prop}

/-- Specified flags are what their conditions say. -/
theorem State.holdsFlags.flagsAre (ht : t.holdsFlags f) (hz : f.z = true ↔ z) (hn : f.n = true ↔ n)
    (hh : f.h = true ↔ h) (hc : f.c = true ↔ c) : FlagsAre t z n h c := by
  obtain ⟨rfl, hmarks⟩ := ht
  exact ⟨hz, hn, hh, hc, hmarks⟩

/-- An INC or DEC write leaves the flags it covers as their conditions say, under both `INC8_CARRY` settings. -/
theorem steppedFlags_writeStepped (r : Reg8) (v : Byte) (hz : f.z = true ↔ z) (hn : f.n = true ↔ n)
    (hh : f.h = true ↔ h) (hc : f.c = true ↔ c) : SteppedFlags s (s.writeStepped r v f) r z n h c := by
  unfold SteppedFlags
  cases hm : s.params.inc8Carry with
  | overwrite =>
    have hflags : (s.writeStepped r v f).holdsFlags f := by simp [State.holdsFlags, hm]
    exact ⟨hflags.flagsAre hz hn hh hc, frame_writeStepped_overwrite s r v f⟩
  | preserve =>
    simp only [State.writeStepped_flags, State.writeStepped_unwrittenFlags]
    exact ⟨hz, hn, hh, trivial, trivial, trivial, frame_writeStepped_preserve s r v f hm⟩

/-- The flags of a subtraction (R138, R151). -/
theorem flagsAre_sub8 {x y : Byte} (ht : t.holdsFlags ((sub8 x y).flags true)) :
    FlagsAre t ((x.toNat + 256 - y.toNat) % 256 = 0) True (x.toNat % 16 < y.toNat % 16) (y.toNat > x.toNat) :=
  ht.flagsAre (sub8_z x y) forcedOne_iff (sub8_h x y) (sub8_c x y)

/-- The flags of a logic operation (R145 to R149). -/
theorem flagsAre_logicFlags {res : Byte} {half : Bool} (ht : t.holdsFlags (logicFlags res half))
    (hh : half = true ↔ h) : FlagsAre t (res = 0#8) False h False :=
  ht.flagsAre decide_eq_true_iff forcedZero_iff hh forcedZero_iff

end

/-- After an accumulator write all four flags are those written. -/
theorem State.writeAcc_holdsFlags (s : State) (v : Byte) (f : Flags) : (s.writeAcc v f).holdsFlags f :=
  ⟨rfl, rfl⟩

/-- After a write of the flags all four are those written. -/
theorem State.writeFlags_holdsFlags (s : State) (f : Flags) : (s.writeFlags f).holdsFlags f :=
  ⟨rfl, rfl⟩

end Sys2Proof.Machine

namespace Sys2Proof.Proofs

open Sys2Proof.Machine Sys2Proof.Claims

/-! ## ADD, ADC, SUB, SBC and CP -/

/-- Settles O11, by the outputs of `add8` in numbers. -/
theorem addResult : Obligations.AddResult := by
  intro r s
  refine ⟨decodeCommand_or_targetByte rfl rfl, _, rfl, ?_, ?_, frame_writeAcc s _ _⟩
  · exact (s.writeAcc_holds _ _).holdsNat (add8_res s.params.carryMode _ _)
  · exact (s.writeAcc_holdsFlags _ _).flagsAre (add8_z s.params.carryMode _ _) forcedZero_iff
      (add8_h s.params.carryMode _ _) (ovf8_iff_carry8 _ _ _)

/-- Settles O12: the inner add is `add8` at the adjusted operand, whose number is `v2`. -/
theorem adcResult : Obligations.AdcResult := by
  intro r s
  refine ⟨decodeCommand_or_targetByte rfl rfl, ?_⟩
  rintro _ _ _ rfl rfl rfl
  rw [← adjusted_carryIn_toNat, ← preCarry_carryIn]
  refine ⟨_, rfl, ?_, ?_, frame_writeAcc s _ _⟩
  · exact (s.writeAcc_holds _ _).holdsNat (add8_res s.params.carryMode _ _)
  · exact (s.writeAcc_holdsFlags _ _).flagsAre (add8_z s.params.carryMode _ _) forcedZero_iff
      (add8_h s.params.carryMode _ _) (adc8_c _ _ _ _)

/-- Settles O13, by the outputs of `sub8` in numbers. -/
theorem subResult : Obligations.SubResult := by
  intro r s
  refine ⟨decodeCommand_or_targetByte rfl rfl, ?_⟩
  rintro _ _ rfl rfl
  refine ⟨_, rfl, ?_, ?_, frame_writeAcc s _ _⟩
  · exact (s.writeAcc_holds _ _).holdsNat (sub8_res _ _)
  · exact flagsAre_sub8 (s.writeAcc_holdsFlags _ _)

/-- Settles O14: the inner subtract is `sub8` at the adjusted operand, whose number is `v2`. -/
theorem sbcResult : Obligations.SbcResult := by
  intro r s
  refine ⟨decodeCommand_or_targetByte rfl rfl, ?_⟩
  rintro _ _ _ rfl rfl rfl
  rw [← adjusted_carryIn_toNat, ← preCarry_carryIn]
  refine ⟨_, rfl, ?_, ?_, frame_writeAcc s _ _⟩
  · exact (s.writeAcc_holds _ _).holdsNat (sub8_res _ _)
  · exact (s.writeAcc_holdsFlags _ _).flagsAre (sub8_z _ _) forcedOne_iff (sub8_h _ _) (sbc8_c _ _ _ _)

/-- Settles O17: the flags of `sub8` are written and its result is not. -/
theorem cpResult : Obligations.CpResult := by
  intro r s
  refine ⟨decodeCommand_or_targetByte rfl rfl, ?_⟩
  rintro _ _ rfl rfl
  exact ⟨_, rfl, flagsAre_sub8 (s.writeFlags_holdsFlags _), frame_writeFlags s _⟩

/-- Settles O45, from O12 by arithmetic on `v2`: where the pre-step overflows `v2` is 0, and the carry then comes
from the pre-step. -/
theorem adcAgainstTheOneStepSum : Obligations.AdcAgainstTheOneStepSum := by
  intro r s l v hm hl hv
  obtain ⟨-, hadc⟩ := adcResult r s
  obtain ⟨t, ht, hA, ⟨-, -, hh, hc, -⟩, -⟩ := hadc l v _ hl hv rfl
  have hlt : l < 256 := hl ▸ BitVec.isLt _
  have hvt : v < 256 := hv ▸ BitVec.isLt _
  have hcin := carryNumber_le_one s
  refine ⟨t, ht, ?_, ?_, fun hnibble hone => ?_⟩
  · have hsum : (l + (v + carryNumber s) % 256) % 256 = (l + v + carryNumber s) % 256 := by omega
    exact hsum ▸ hA
  · rw [hc, hm]
    simp only [carry8]
    omega
  · rw [carryNumber_of_carryIn hone] at hh
    rw [← Bool.not_eq_true, hh]
    omega

/-- Settles O46, from O14 by arithmetic on `v2`: where the pre-step overflows `v2` is 0, and the borrow then comes
from the pre-step. -/
theorem sbcAgainstTheOneStepDifference : Obligations.SbcAgainstTheOneStepDifference := by
  intro r s l v hl hv
  obtain ⟨-, hsbc⟩ := sbcResult r s
  obtain ⟨t, ht, hA, ⟨-, -, hh, hc, -⟩, -⟩ := hsbc l v _ hl hv rfl
  have hlt : l < 256 := hl ▸ BitVec.isLt _
  have hvt : v < 256 := hv ▸ BitVec.isLt _
  have hcin := carryNumber_le_one s
  refine ⟨t, ht, ?_, fun hm => ?_, fun hnibble hone => ?_⟩
  · have hdiff : (l + 256 - (v + carryNumber s) % 256) % 256 = (l + 512 - v - carryNumber s) % 256 := by omega
    exact hdiff ▸ hA
  · rw [hc, hm]
    simp only [carry8]
    omega
  · rw [carryNumber_of_carryIn hone] at hh
    rw [← Bool.not_eq_true, hh]
    omega

/-- Settles O47: CP writes the flags that SUB writes, and SUB's write of A is all that sets them apart. -/
theorem cpAndSubWriteTheSameFlags : Obligations.CpAndSubWriteTheSameFlags := by
  intro r s
  let o := sub8 (s.readReg .left .A) (s.readReg .right r)
  obtain ⟨hregs, -, houtside⟩ := frame_writeAcc s o.res (o.flags true)
  exact ⟨s.writeFlags (o.flags true), s.writeAcc o.res (o.flags true), rfl, rfl, rfl, rfl, hregs, houtside⟩

/-! ## AND, OR and XOR -/

/-- Settles O15, by the flags of a logic operation with H forced to 1. -/
theorem andResult : Obligations.AndResult := by
  intro r s
  exact ⟨decodeCommand_or_targetByte rfl rfl, _, rfl, s.writeAcc_holds _ _,
    flagsAre_logicFlags (s.writeAcc_holdsFlags _ _) forcedOne_iff, frame_writeAcc s _ _⟩

/-- Settles O16, by the flags of a logic operation with H forced to 0. -/
theorem orAndXorResult : Obligations.OrAndXorResult := by
  intro r s
  constructor
  · exact ⟨decodeCommand_or_targetByte rfl rfl, _, rfl, s.writeAcc_holds _ _,
      flagsAre_logicFlags (s.writeAcc_holdsFlags _ _) forcedZero_iff, frame_writeAcc s _ _⟩
  · exact ⟨decodeCommand_or_targetByte rfl rfl, _, rfl, s.writeAcc_holds _ _,
      flagsAre_logicFlags (s.writeAcc_holdsFlags _ _) forcedZero_iff, frame_writeAcc s _ _⟩

/-- Settles O52: both reads of a specified A give the stored value, so a difference or XOR is 0 and an AND or OR writes
back what was there. -/
theorem accumulatorAgainstItself : Obligations.AccumulatorAgainstItself := by
  intro s hA
  have hread (site : ReadSite) : s.readReg site .A = s.regs.get .A := s.readReg_specified site .A hA
  have hkept : s.regs.set .A (s.regs.get .A) = s.regs := s.regs.set_get .A
  simp only [exec, execSubR, execXorR, execCpR, execAndR, execOrR, hread, sub8_self, BitVec.xor_self, BitVec.and_self,
    BitVec.or_self]
  have hzeroN : pack ⟨true, true, false, false⟩ = 0xC0#8 := by decide
  have hzero : pack ⟨true, false, false, false⟩ = 0x80#8 := by decide
  refine ⟨⟨_, rfl, ?_, hzeroN⟩, ⟨_, rfl, ?_, hzero⟩, ⟨_, rfl, rfl, hzeroN⟩, ⟨_, rfl, hkept, ?_⟩, ⟨_, rfl, hkept, ?_⟩⟩
  · exact (s.writeAcc_holds _ _).holdsNat rfl
  · exact (s.writeAcc_holds _ _).holdsNat rfl
  · exact pack_logicFlags _ true
  · exact pack_logicFlags _ false

/-! ## INC and DEC of a register -/

/-- Settles O18, by the outputs of `add8` with the operand 1. -/
theorem incResult : Obligations.IncResult := by
  intro r s
  refine ⟨decodeCommand_or_targetByte rfl rfl, ?_⟩
  rintro _ rfl
  refine ⟨_, rfl, ?_, ?_⟩
  · exact (s.writeStepped_holds r _ _).holdsNat (add8_res s.params.carryMode _ _)
  · exact steppedFlags_writeStepped r _ (add8_z s.params.carryMode _ _) forcedZero_iff
      (add8_h s.params.carryMode _ _) (ovf8_iff_carry8 _ _ _)

/-- Settles O19, by the outputs of `sub8` with the operand 1: the borrow is that of 0. -/
theorem decResult : Obligations.DecResult := by
  intro r s
  refine ⟨decodeCommand_or_targetByte rfl rfl, ?_⟩
  rintro _ rfl
  have hborrow : (s.readReg .left r).toNat < 1 ↔ (s.readReg .left r).toNat = 0 := Nat.lt_one_iff
  refine ⟨_, rfl, ?_, ?_⟩
  · exact (s.writeStepped_holds r _ _).holdsNat (sub8_res _ _)
  · exact steppedFlags_writeStepped r _ (sub8_z _ _) forcedOne_iff (sub8_h _ _) ((sub8_c _ _).trans hborrow)

/-- Settles O49: DEC reads what INC wrote, and its write covers INC's, so the state is the one a DEC of `v + 1`
leaves. -/
theorem incThenDecRestoresTheRegister : Obligations.IncThenDecRestoresTheRegister := by
  intro r s
  let v := s.readReg .left r
  let o := add8 s.params.carryMode v 1#8
  let u := s.writeStepped r o.res (o.flags false)
  let d := sub8 o.res 1#8
  have hdec : exec (.decR r) u = .next (s.writeStepped r d.res (d.flags true)) := by
    show Host.Outcome.next (u.writeStepped r _ _) = _
    rw [s.readReg_writeStepped_same, s.writeStepped_again]
  have hres : d.res = v := sub8_add8_res s.params.carryMode _ _
  have hnext : o.res.toNat = (v.toNat + 1) % 256 := add8_res s.params.carryMode _ _
  have hv := v.isLt
  refine ⟨_, hdec, hres ▸ s.writeStepped_holds r _ _, steppedFlags_writeStepped r _ ?_ forcedOne_iff ?_ ?_⟩
  · show decide (d.res = 0#8) = true ↔ v = 0#8
    rw [hres, decide_eq_true_iff]
  · show d.h = true ↔ (v.toNat + 1) % 16 = 0
    rw [sub8_h, hnext, BitVec.toNat_one (by omega)]
    omega
  · show d.c = true ↔ v = 0xFF#8
    rw [sub8_c, hnext, ← BitVec.toNat_inj, BitVec.toNat_one (by omega), BitVec.toNat_ofNat]
    omega

/-! ## CCF -/

/-- Settles O20: the write keeps Z, and the target is not looked at. -/
theorem ccfResult : Obligations.CcfResult := by
  intro r s
  exact ⟨decodeCommand_or_targetByte rfl rfl, s.writeFlagsKeepZ ⟨false, false, false, !s.carryIn⟩, rfl, fun _ => rfl,
    rfl, rfl, rfl, rfl, rfl, rfl, frame_writeFlagsKeepZ s _⟩

/-- Settles O51: the second CCF inverts the carry that the first one wrote, and its write covers the first one's. -/
theorem ccfTwiceRestoresTheCarry : Obligations.CcfTwiceRestoresTheCarry := by
  intro r q s
  have htwice : execThen (.ccfR r) (.ccfR q) s = .next (s.writeFlagsKeepZ ⟨false, false, false, s.carryIn⟩) := by
    show Host.Outcome.next (State.writeFlagsKeepZ _ _) = _
    rw [s.carryIn_writeFlagsKeepZ, s.writeFlagsKeepZ_again, Bool.not_not]
  exact ⟨_, htwice, rfl, rfl, rfl, frame_writeFlagsKeepZ s _⟩

end Sys2Proof.Proofs

/-! # The 16-bit path (spec/42_alu16.md R180 to R189)

The word of ADDHL, the 16-bit adder in numbers, and what writing a pair leaves, for any pair. -/

namespace Sys2Proof

/-- ADDHL stands for the pair of ADDHL and HL alone, so it has one word (R183). -/
theorem decodeCommand_eq_addhlHL {cmd : Byte} : decodeCommand cmd = some .addhlHL ↔ cmd = 0x18#8 := by
  rw [decodeCommand_eq_some]
  constructor
  · rintro ⟨_, ⟨⟩, rfl⟩
    rfl
  · rintro rfl
    exact ⟨_, rfl, rfl⟩

end Sys2Proof

namespace Sys2Proof.Machine

open Sys2Proof.Claims

theorem ovf16_iff_carry16 (m : CarryMode) (l r : Word16) : ovf16 m l r = true ↔ carry16 m l.toNat r.toNat := by
  cases m with
  | unsigned => exact decide_eq_true_iff
  | refInt => simp only [ovf16, carry16, decide_eq_true_eq]; omega
  | refWrap => exact decide_eq_true_iff

theorem hc16Value_toNat_add_one (k : Hc16Mask) : (hc16Value k).toNat + 1 = halfModulus k := by
  cases k <;> rfl

/-- The 16-bit half-carry is the carry out of the bits below the mask's modulus (R105). -/
theorem add16_h_halfModulus (m : CarryMode) (k : Hc16Mask) (l r : Word16) : (add16 m k l r).h = true ↔
    l.toNat % halfModulus k + r.toNat % halfModulus k > halfModulus k - 1 := by
  rw [add16_h, ← hc16Value_toNat_add_one, Nat.add_sub_cancel]

theorem toNat_halves (v : Word16) : (v.extractLsb' 8 8).toNat * 256 + (v.extractLsb' 0 8).toNat = v.toNat := by
  have hv := v.isLt
  simp only [BitVec.extractLsb'_toNat, Nat.shiftRight_eq_div_pow]
  omega

theorem toNat_sub_one (v : Word16) : (v - 1#16).toNat = (v.toNat + 65535) % 65536 := by
  rw [BitVec.toNat_sub, BitVec.toNat_one (by omega), Nat.add_comm]

/-- After a pair is written it holds the number written. -/
theorem State.writePair_pairHolds (s : State) (p : Pair) {v : Word16} {n : Nat} (hn : v.toNat = n) :
    PairHolds (s.writePair p v) p n := by
  obtain ⟨⟨hhi, hhiMark⟩, ⟨hlo, hloMark⟩⟩ := writePair_holds s p v
  refine ⟨?_, hhiMark, hloMark⟩
  rw [hhi, hlo, toNat_halves, hn]

theorem State.incPair_pairHolds (s : State) (p : Pair) :
    PairHolds (s.incPair p) p (((s.readPair .left p).toNat + 1) % 65536) :=
  s.writePair_pairHolds p (BitVec.toNat_add _ _)

theorem State.decPair_pairHolds (s : State) (p : Pair) :
    PairHolds (s.decPair p) p (((s.readPair .left p).toNat + 65535) % 65536) :=
  s.writePair_pairHolds p (toNat_sub_one _)

/-- Of two writes of one pair the later wins. -/
theorem State.writePair_again (s : State) (p : Pair) (v w : Word16) :
    (s.writePair p v).writePair p w = s.writePair p w := by
  simp only [State.writePair]
  rw [State.writeReg_comm _ p.hi_ne_lo.symm, State.writeReg_again, State.writeReg_again]

/-- DEC reads the pair that INC left, and its write covers INC's: the pair is written with its value from before. -/
theorem State.decPair_incPair (s : State) (p : Pair) :
    (s.incPair p).decPair p = s.writePair p (s.readPair .left p) := by
  rw [State.decPair, State.incPair, State.readPair_writePair, BitVec.add_sub_cancel, State.writePair_again]

end Sys2Proof.Machine

namespace Sys2Proof.Proofs

open Sys2Proof.Machine Sys2Proof.Claims

/-- Settles O53: HL is written with the result of `add16` and then the flags with its flags. -/
theorem addhlDatapathWithAnyOperand : Obligations.AddhlDatapathWithAnyOperand := by
  rintro s v _ _ rfl rfl
  let o := add16 s.params.carryMode s.params.hc16Mask (s.readPair .left .HL) v
  refine ⟨?_, ?_, frame_addToHL s v⟩
  · exact s.writePair_pairHolds .HL (add16_res s.params.carryMode s.params.hc16Mask _ v)
  · exact (State.writeFlags_holdsFlags _ (o.flags false)).flagsAre (add16_z s.params.carryMode s.params.hc16Mask _ _)
      forcedZero_iff (add16_h_halfModulus s.params.carryMode _ _ _) (ovf16_iff_carry16 _ _ _)

/-- Settles O21: the datapath of O53 with HL as its operand. -/
theorem addhlResult : Obligations.AddhlResult := by
  refine ⟨fun _ => decodeCommand_eq_addhlHL, ?_⟩
  rintro s l _ m hl rfl hm
  exact ⟨s.addToHL (s.readPair .right .HL), rfl, addhlDatapathWithAnyOperand s _ l m hl hm⟩

/-- Settles O22: each instruction writes its pair, and a write of a pair touches no flag. -/
theorem incDecPairResult : Obligations.IncDecPairResult := by
  refine ⟨⟨rfl, rfl, rfl, rfl⟩, fun s => ⟨?_, ?_, ?_, ?_⟩⟩
  · exact ⟨s.incPair .BC, rfl, s.incPair_pairHolds .BC, frame_writePair s .BC _⟩
  · exact ⟨s.incPair .HL, rfl, s.incPair_pairHolds .HL, frame_writePair s .HL _⟩
  · exact ⟨s.decPair .BC, rfl, s.decPair_pairHolds .BC, frame_writePair s .BC _⟩
  · exact ⟨s.decPair .HL, rfl, s.decPair_pairHolds .HL, frame_writePair s .HL _⟩

/-- Settles O50: INC and then DEC write the pair with its own value. -/
theorem incThenDecRestoresThePair : Obligations.IncThenDecRestoresThePair := by
  have restored (s : State) (p : Pair) : PairHolds ((s.incPair p).decPair p) p (s.readPair .left p).toNat ∧
      Frame [p.hi, p.lo] [] s ((s.incPair p).decPair p) := by
    rw [s.decPair_incPair]
    exact ⟨s.writePair_pairHolds p rfl, frame_writePair s p _⟩
  exact fun s => ⟨⟨_, rfl, restored s .BC⟩, ⟨_, rfl, restored s .HL⟩⟩

end Sys2Proof.Proofs

/-! # The host's port operations and the read ports (spec/43_host_access.md R200 to R209)

First what each kind of host operation decodes to, the cycle of an error, and the bits of the packed flags and of the
status port. -/

namespace Sys2Proof

/-- Kind 0 is IDLE whatever the other inputs (R203). -/
theorem decode_idle {p : PortInput} (hkind : p.opKind = 0#3) : decode p = .ok .idle := by
  simp [decode, hkind]

/-- Kind 2 with a register's selector is SET8 of that register (R200). -/
theorem decode_set8R {p : PortInput} {r : Reg8} (hkind : p.opKind = 2#3) (hsel : p.sel = r.sel) :
    decode p = .ok (.set8R r (p.data.extractLsb' 0 8)) := by
  simp [decode, hkind, hsel]

/-- Kind 2 with selector 7 is SET8 of the flags (R201). -/
theorem decode_set8F {p : PortInput} (hkind : p.opKind = 2#3) (hsel : p.sel = 7#3) :
    decode p = .ok (.set8F (p.data.extractLsb' 0 8)) := by
  have hF : reg8OfSel 7#3 = none := rfl
  simp [decode, hkind, hsel, hF]

/-- Kind 3 with a pair's selector is SET16 of that pair (R202). -/
theorem decode_set16 {p : PortInput} {pr : Pair} (hkind : p.opKind = 3#3)
    (hsel : p.sel.extractLsb' 0 2 = pr.sel.setWidth 2) : decode p = .ok (.set16 pr p.data) := by
  simp [decode, hkind, hsel]

/-- Kind 3 with pair selector 3 is an error (R225). -/
theorem decode_reservedPair {p : PortInput} (hkind : p.opKind = 3#3) (hsel : p.sel.extractLsb' 0 2 = 3#2) :
    decode p = .error (.reservedPair 3#2) := by
  have hnone : pairOfSel 3#2 = none := rfl
  simp [decode, hkind, hsel, hnone]

end Sys2Proof

namespace Sys2Proof.Machine

open Sys2Proof.Claims

/-- A cycle whose operation does not decode, without reset, raises its error (R224). -/
theorem step_of_decode_error {s : State} {p : PortInput} {rest : List PortInput} {e : PortError}
    (hin : s.inputs = p :: rest) (hrst : p.rst = false) (hdec : decode p = .error e) :
    step s = .next ((s.consume rest).raiseError e) := by
  simp [step, nextCycle, hin, clockEdge, hrst, hdec]

/-- After a register is written it holds the value written (R23). -/
theorem State.writeReg_holds (s : State) (r : Reg8) (v : Byte) : (s.writeReg r v).holds r v := by
  simp [State.holds]

/-- A bit of a byte, in numbers. -/
theorem getLsbD_iff_toNat_div (b : Byte) (i : Nat) : b.getLsbD i = true ↔ b.toNat / 2 ^ i % 2 = 1 := by
  rw [BitVec.getLsbD, Nat.testBit_eq_decide_div_mod_eq, decide_eq_true_iff]

/-- The flags of an unpacked byte are its bits 7 to 4, in numbers (R32). -/
theorem flagsAre_unpack {t : State} {b : Byte} (ht : t.holdsFlags (unpack b)) :
    FlagsAre t (b.toNat / 128 % 2 = 1) (b.toNat / 64 % 2 = 1) (b.toNat / 32 % 2 = 1) (b.toNat / 16 % 2 = 1) :=
  ht.flagsAre (getLsbD_iff_toNat_div b 7) (getLsbD_iff_toNat_div b 6) (getLsbD_iff_toNat_div b 5)
    (getLsbD_iff_toNat_div b 4)

/-- The packed byte has no bits below the four flags (R29). -/
theorem pack_lowNibble (f : Flags) : (pack f).extractLsb' 0 4 = 0#4 := by
  apply BitVec.eq_of_getLsbD_eq
  intro i hi
  rw [BitVec.getLsbD_extractLsb', getLsbD_pack]
  interval_cases i <;> simp

/-- The status port's low byte is the latch's information (R206). -/
theorem State.errStatus_info (s : State) : s.errStatus.extractLsb' 0 8 = s.err.info :=
  BitVec.extractLsb'_append_eq_right

/-- The status port's two high bits are the cause's code (R206). -/
theorem State.errStatus_cause (s : State) : s.errStatus.extractLsb' 8 2 = s.err.cause.code :=
  BitVec.extractLsb'_append_eq_left

end Sys2Proof.Machine

namespace Sys2Proof.Proofs

open Sys2Proof.Machine Sys2Proof.Claims

/-- Settles O26: the cycle of pair selector 3 raises its error in the state with the operation taken, and SET16 writes
its pair. -/
theorem set16Result : Obligations.Set16Result := by
  refine ⟨fun _ _ => decode_set16, fun _ => decode_reservedPair, ?_, fun pr v s => ?_⟩
  · intro s p rest hin hrst hkind hsel
    refine ⟨_, step_of_decode_error hin hrst (decode_reservedPair hkind hsel), ?_⟩
    simp [latchOf]
  · obtain ⟨hhi, hlo⟩ := writePair_holds s pr v
    exact ⟨s.writePair pr v, rfl, s.writePair_pairHolds pr rfl, hhi, hlo, frame_writePair s pr v⟩

/-- Settles O23: kind 0 decodes without a look at the other inputs, and IDLE answers its own state. -/
theorem idleChangesNothing : Obligations.IdleChangesNothing :=
  ⟨fun _ => decode_idle, fun _ => rfl⟩

/-- Settles O24, by the write of one register. -/
theorem set8Result : Obligations.Set8Result :=
  ⟨fun _ _ => decode_set8R, fun r v s => ⟨s.writeReg r v, rfl, s.writeReg_holds r v, frame_writeReg s r v⟩⟩

/-- Settles O25, by the write of the unpacked byte to all four flags. -/
theorem set8FlagsResult : Obligations.Set8FlagsResult :=
  ⟨fun _ => decode_set8F, fun b s =>
    ⟨s.writeFlags (unpack b), rfl, flagsAre_unpack (s.writeFlags_holdsFlags _), frame_writeFlags s _⟩⟩

/-- Settles O27: both ports read the registers at the site of the same read number, so even draws agree. -/
theorem readPortsAgree : Obligations.ReadPortsAgree := by
  have agree (s : State) (k : Nat) (p : Pair) :
      s.rd16 k (p.sel.setWidth 2) = s.rd8 k p.hi.sel ++ s.rd8 k p.lo.sel := by
    rw [State.rd16_sel, State.rd8_sel, State.rd8_sel, State.readPair]
  exact fun s k => ⟨agree s k .BC, agree s k .DE, agree s k .HL⟩

/-- Settles O28: a port with a register's or a pair's selector reads at its port site, and the packed byte has each flag
at its own bit. -/
theorem readPortsShowTheStoredState : Obligations.ReadPortsShowTheStoredState := by
  intro s k
  have reg (r : Reg8) (h : s.unwritten.get r = false) : s.rd8 k r.sel = s.regs.get r :=
    (s.rd8_sel k r).trans (s.readReg_specified _ r h)
  have flag (f : Flag) := s.readFlag_specified (.port k) f
  have hi (p : Pair) (h : s.unwritten.get p.hi = false) :
      (s.rd16 k (p.sel.setWidth 2)).extractLsb' 8 8 = s.regs.get p.hi := by
    rw [State.rd16_sel, State.readPair_hi_specified _ _ _ h]
  have lo (p : Pair) (h : s.unwritten.get p.lo = false) :
      (s.rd16 k (p.sel.setWidth 2)).extractLsb' 0 8 = s.regs.get p.lo := by
    rw [State.rd16_sel, State.readPair_lo_specified _ _ _ h]
  have hbits : unpack (s.rd8 k 7#3) = s.portFlags k := unpack_pack _
  refine ⟨reg .A, reg .B, reg .C, reg .D, reg .E, reg .H, reg .L, ?_, ?_, ?_, ?_, pack_lowNibble _,
    hi .BC, lo .BC, hi .DE, lo .DE, hi .HL, lo .HL⟩
  · exact fun h => (congrArg Flags.z hbits).trans (flag .Z h)
  · exact fun h => (congrArg Flags.n hbits).trans (flag .N h)
  · exact fun h => (congrArg Flags.h hbits).trans (flag .H h)
  · exact fun h => (congrArg Flags.c hbits).trans (flag .C h)

/-- Settles O33: the port puts the cause's code above the information. -/
theorem statusPortLayout : Obligations.StatusPortLayout := by
  intro s
  have code {c : ErrCause} (h : s.err.cause = c) : s.errStatus.extractLsb' 8 2 = c.code :=
    h ▸ s.errStatus_cause
  exact ⟨s.errStatus_info, code, code, code, code⟩

end Sys2Proof.Proofs

/-! # Errors (spec/60_exceptions.md R222 to R229, R240)

First what a step answers without an operation and with one, then each error's decoding and record, a state with another
latch, and the latch along a run without reset. -/

namespace Sys2Proof

/-- Kind 1 with a word that is no legal pair is an error (R222). -/
theorem decode_illegalCommand {p : PortInput} (hkind : p.opKind = 1#3) (hcmd : decodeCommand p.cmd = none) :
    decode p = .error (.illegalCommand p.cmd) := by
  simp [decode, hkind, hcmd]

/-- Kinds 4 to 7 are an error whatever the other inputs (R223). -/
theorem decode_reservedOpKind {p : PortInput} (hkind : 4 ≤ p.opKind.toNat) :
    decode p = .error (.reservedOpKind p.opKind) := by
  unfold decode
  split
  case h_5 => rfl
  all_goals omega

end Sys2Proof

namespace Sys2Proof.Machine

open Sys2Proof.Claims

/-! ## A step, by the pending operations -/

theorem step_of_inputs_nil {s : State} (hin : s.inputs = []) : step s = .next s := by
  simp only [step, nextCycle, hin]

theorem step_of_inputs_cons {s : State} {p : PortInput} {rest : List PortInput} (hin : s.inputs = p :: rest) :
    step s = .next (afterEdge p (s.consume rest)) := by
  simp only [step, nextCycle, hin, clockEdge_eq_next]

/-- Every step answers a next state (R261). -/
theorem exists_step_eq_next (s : State) : ∃ t, step s = .next t := by
  cases hin : s.inputs with
  | nil => exact ⟨s, step_of_inputs_nil hin⟩
  | cons p rest => exact ⟨_, step_of_inputs_cons hin⟩

/-- A step takes the operation in front, if there is one (R261). -/
theorem step_inputs {s t : State} (h : step s = .next t) : t.inputs = s.inputs.tail := by
  obtain ⟨hin, rfl⟩ | ⟨p, rest, hin, ⟨-, rfl⟩ | ⟨-, i, -, rfl⟩ | ⟨-, e, -, rfl⟩⟩ := step_cases h
  · simp [hin]
  · simp [hin]
  · obtain ⟨-, -, -, hinputs⟩ := afterInstr_outside (s.consume rest) i
    simp [hin, hinputs]
  · simp [hin]

/-! ## Another latch -/

/-- The state with another content of the latch. -/
def State.withErr (s : State) (e : ErrLatch) : State :=
  { s with err := e }

/-- An error writes the latch alone (R224). -/
theorem State.raiseError_eq_withErr (s : State) (e : PortError) : s.raiseError e = s.withErr (s.raiseError e).err := by
  unfold State.raiseError
  split <;> rfl

theorem State.withErr_writeStepped (s : State) (e : ErrLatch) (r : Reg8) (v : Byte) (f : Flags) :
    (s.withErr e).writeStepped r v f = (s.writeStepped r v f).withErr e := by
  unfold State.writeStepped State.withErr
  cases s.params.inc8Carry <;> rfl

/-- No instruction reads or writes the latch. -/
theorem afterInstr_withErr (s : State) (e : ErrLatch) (i : Instr) :
    afterInstr (s.withErr e) i = (afterInstr s i).withErr e := by
  cases i with
  | incR r | decR r => exact s.withErr_writeStepped e r _ _
  | _ => rfl

/-- A cycle from a state with another latch leaves everything but the latch as it would have been (R227). -/
theorem exists_afterEdge_withErr (p : PortInput) (s : State) (e : ErrLatch) :
    ∃ e', afterEdge p (s.withErr e) = (afterEdge p s).withErr e' := by
  unfold afterEdge
  split
  · exact ⟨_, rfl⟩
  · split
    next i _ => exact ⟨e, afterInstr_withErr s e i⟩
    next x _ =>
      rw [s.raiseError_eq_withErr x, (s.withErr e).raiseError_eq_withErr x]
      exact ⟨_, rfl⟩

/-- A step from a state with another latch leaves everything but the latch as it would have been (R227). -/
theorem exists_step_withErr {s t : State} (h : step s = .next t) (e : ErrLatch) :
    ∃ e', step (s.withErr e) = .next (t.withErr e') := by
  cases hin : s.inputs with
  | nil =>
    rw [step_of_inputs_nil hin, Host.Outcome.next.injEq] at h
    exact ⟨e, h ▸ step_of_inputs_nil (s := s.withErr e) hin⟩
  | cons p rest =>
    rw [step_of_inputs_cons hin, Host.Outcome.next.injEq] at h
    obtain ⟨e', he'⟩ := exists_afterEdge_withErr p (s.consume rest) e
    exact ⟨e', h ▸ he' ▸ step_of_inputs_cons (s := s.withErr e) hin⟩

/-! ## The record of an error -/

/-- A recorded latch holds an error (R226). -/
theorem latchOf_cause_ne_noError (e : PortError) : (latchOf e).cause ≠ .noError := by
  cases e <;> simp [latchOf]

/-- A cycle whose operation does not decode, without reset, records its error (R224). -/
theorem step_eq_recorded {s : State} {p : PortInput} {rest : List PortInput} {e : PortError}
    (hin : s.inputs = p :: rest) (hrst : p.rst = false) (hdec : decode p = .error e) :
    step s = .next (recorded s rest (latchOf e).cause (latchOf e).info) :=
  step_of_decode_error hin hrst hdec

/-! ## Runs without reset, and the fault view (R229) -/

theorem step_keeps_noReset {s t : State} (hs : NoReset s) (h : step s = .next t) : NoReset t :=
  fun p hp => hs p (List.mem_of_mem_tail (step_inputs h ▸ hp))

/-- Without reset a latched error stays (R38). -/
theorem step_keeps_error {s t : State} (hs : NoReset s) (herr : s.err.cause ≠ .noError) (h : step s = .next t) :
    t.err = s.err := by
  obtain hkeep | ⟨p, rest, hin, hrst, -⟩ | ⟨hclear, -⟩ := step_err_cases h
  · exact hkeep
  · have hnot : p.rst = false := hs p (by simp [hin])
    simp [hnot] at hrst
  · exact absurd hclear herr

/-- A run without reset from a latched error does not end well. -/
theorem run_keeps_error {k : Nat} {s t : State} (hs : NoReset s) (herr : s.err.cause ≠ .noError)
    (h : Host.Core.run core k s = .next t) : t.err = s.err := by
  induction k generalizing s with
  | zero => cases h; rfl
  | succ k ih =>
    obtain ⟨u, hu⟩ := exists_step_eq_next s
    rw [run_succ_of_step hu] at h
    have hkeep : u.err = s.err := step_keeps_error hs herr hu
    exact (ih (step_keeps_noReset hs hu) (hkeep ▸ herr) h).trans hkeep

/-- From a clear latch the fault view steps with the machine where no error comes, and faults where the machine records
one. -/
theorem stepFaulting_cases {s t : State} (hclear : s.err.cause = .noError) (h : step s = .next t) :
    (stepFaulting s = .next t ∧ t.err.cause = .noError) ∨
    ((∃ f, stepFaulting s = .fault f) ∧ t.err.cause ≠ .noError) := by
  obtain ⟨hin, rfl⟩ | ⟨p, rest, hin, ⟨hrst, rfl⟩ | ⟨hrst, i, hdec, rfl⟩ | ⟨hrst, e, hdec, rfl⟩⟩ := step_cases h
  · exact .inl ⟨by simp [stepFaulting, hin, h], hclear⟩
  · exact .inl ⟨by simp [stepFaulting, hin, errorOf, hrst, h], rfl⟩
  · obtain ⟨herr, -⟩ := afterInstr_outside (s.consume rest) i
    exact .inl ⟨by simp [stepFaulting, hin, errorOf, hrst, hdec, h], by simp [herr, hclear]⟩
  · refine .inr ⟨⟨faultOf e, by simp [stepFaulting, hin, errorOf, hrst, hdec]⟩, ?_⟩
    simpa [hclear] using latchOf_cause_ne_noError e

/-- A run of the fault view goes on from the state after its first step. -/
theorem runFaulting_succ_of_next {s t : State} (h : stepFaulting s = .next t) (k : Nat) :
    Host.Core.run faultingCore (k + 1) s = Host.Core.run faultingCore k t := by
  have hcore : faultingCore.step s = .next t := h
  simp only [Host.Core.run, hcore]

/-- A run of the fault view ends at a fault. -/
theorem runFaulting_succ_of_fault {s : State} {f : Fault} (h : stepFaulting s = .fault f) (k : Nat) :
    Host.Core.run faultingCore (k + 1) s = .fault f := by
  have hcore : faultingCore.step s = .fault f := h
  simp only [Host.Core.run, hcore]

end Sys2Proof.Machine

namespace Sys2Proof.Proofs

open Sys2Proof.Machine Sys2Proof.Claims

/-- Settles O37, by induction on the steps: up to the first error the two views step together from a clear latch to a
clear latch; there the fault view stops, and the machine's latch holds the error to the end of the run. -/
theorem faultViewAgreesWithTheLatch : Obligations.FaultViewAgreesWithTheLatch := by
  intro k
  induction k with
  | zero =>
    intro s t hclear _
    refine (and_iff_left_of_imp fun h => ?_).symm
    cases h
    exact hclear
  | succ k ih =>
    intro s t hclear hs
    obtain ⟨u, hu⟩ := exists_step_eq_next s
    have hs' : NoReset u := step_keeps_noReset hs hu
    rw [run_succ_of_step hu]
    obtain ⟨hnext, hclear'⟩ | ⟨⟨f, hfault⟩, herr⟩ := stepFaulting_cases hclear hu
    · rw [runFaulting_succ_of_next hnext]
      exact ih u t hclear' hs'
    · rw [runFaulting_succ_of_fault hfault]
      refine iff_of_false nofun fun ⟨hrun, hwell⟩ => herr ?_
      rw [← run_keeps_error hs' herr hrun]
      exact hwell

/-- Settles O32: each of the three operations does not decode, and its error's latch is the one the spec gives. -/
theorem errorsAreRecordedInTheLatch : Obligations.ErrorsAreRecordedInTheLatch := by
  intro s p rest hin hrst
  refine ⟨fun hkind hcmd => ?_, fun hkind => ?_, fun hkind hsel => ?_⟩
  · exact step_eq_recorded hin hrst (decode_illegalCommand hkind hcmd)
  · exact step_eq_recorded hin hrst (decode_reservedOpKind hkind)
  · exact step_eq_recorded hin hrst (decode_reservedPair hkind hsel)

/-- Settles O35: the step from the other latch differs in the latch alone, so putting the first one's latch back gives
the first one's state. -/
theorem errorsDoNotAffectExecution : Obligations.ErrorsDoNotAffectExecution := by
  intro s t e h
  obtain ⟨e', he'⟩ := exists_step_withErr h e
  exact ⟨t.withErr e', he', rfl⟩

/-- Settles O6: the step of an empty list of operations. -/
theorem stepWithoutOperationHolds : Obligations.StepWithoutOperationHolds :=
  fun _ => step_of_inputs_nil

/-- Settles O36: the cycle raises its error in the state with the operation taken, and that writes the latch alone. -/
theorem errorsArePrecise : Obligations.ErrorsArePrecise := by
  intro s t p rest e hin hrst hdec h
  rw [step_of_decode_error hin hrst hdec, Host.Outcome.next.injEq, State.raiseError_eq_withErr] at h
  subst h
  exact ⟨rfl, rfl, rfl, rfl, rfl, rfl⟩

end Sys2Proof.Proofs

/-! # Reset and hazards (spec/70_reset_and_hazards.md R250 to R266)

First the marks of unspecified registers and flags, which no write sets; then the cycle, the reset, and the order of the
host's writes. -/

namespace Sys2Proof

/-- Two pairs have no register in common (R24). -/
theorem Pair.halves_ne_of_ne {p q : Pair} (h : p ≠ q) : (p.hi ≠ q.hi ∧ p.hi ≠ q.lo) ∧ (p.lo ≠ q.hi ∧ p.lo ≠ q.lo) := by
  cases p <;> cases q <;> simp [Pair.hi, Pair.lo] at h ⊢

end Sys2Proof

namespace Sys2Proof.Machine

open Sys2Proof.Claims

/-! ## Specified registers and flags stay specified -/

/-- Where no register is unspecified, ending one's unspecified state changes no mark. -/
theorem resetUnwritten_zero_set (r : Reg8) : (resetUnwritten .zero).set r false = resetUnwritten .zero := by
  cases r <;> rfl

section
variable {s : State} (hs : s.allSpecified)
include hs

theorem State.allSpecified.writeReg (r : Reg8) (v : Byte) : (s.writeReg r v).allSpecified := by
  obtain ⟨hregs, hflags⟩ := hs
  exact ⟨by rw [State.writeReg_unwritten, hregs, resetUnwritten_zero_set], hflags⟩

theorem State.allSpecified.writePair (p : Pair) (v : Word16) : (s.writePair p v).allSpecified :=
  (hs.writeReg p.hi _).writeReg p.lo _

theorem State.allSpecified.writeFlags (f : Flags) : (s.writeFlags f).allSpecified :=
  ⟨hs.left, rfl⟩

/-- The mark that the write keeps, that of C, is clear already. -/
theorem State.allSpecified.writeFlagsKeepC (f : Flags) : (s.writeFlagsKeepC f).allSpecified := by
  obtain ⟨hregs, hflags⟩ := hs
  exact ⟨hregs, by rw [State.writeFlagsKeepC_unwrittenFlags, hflags]; rfl⟩

/-- The mark that the write keeps, that of Z, is clear already. -/
theorem State.allSpecified.writeFlagsKeepZ (f : Flags) : (s.writeFlagsKeepZ f).allSpecified := by
  obtain ⟨hregs, hflags⟩ := hs
  exact ⟨hregs, by rw [State.writeFlagsKeepZ_unwrittenFlags, hflags]; rfl⟩

theorem State.allSpecified.writeStepped (r : Reg8) (v : Byte) (f : Flags) : (s.writeStepped r v f).allSpecified := by
  unfold State.writeStepped
  split
  · exact (hs.writeReg r v).writeFlags f
  · exact (hs.writeReg r v).writeFlagsKeepC f

/-- No instruction makes a register or flag unspecified. -/
theorem afterInstr_allSpecified (i : Instr) : (afterInstr s i).allSpecified := by
  cases i with
  | addR | adcR | subR | sbcR | andR | orR | xorR => exact (hs.writeReg .A _).writeFlags _
  | cpR => exact hs.writeFlags _
  | incR r | decR r => exact hs.writeStepped r _ _
  | ccfR => exact hs.writeFlagsKeepZ _
  | addhlHL => exact (hs.writePair .HL _).writeFlags _
  | incBC | decBC => exact hs.writePair .BC _
  | incHL | decHL => exact hs.writePair .HL _
  | idle => exact hs
  | set8R r v => exact hs.writeReg r v
  | set8F b => exact hs.writeFlags _
  | set16 p v => exact hs.writePair p v

end

/-- A reset in mode `zero` leaves nothing unspecified (R251). -/
theorem State.applyReset_allSpecified {s : State} (hzero : s.params.resetMode = .zero) : s.applyReset.allSpecified := by
  simp [State.allSpecified, hzero]

/-- In mode `zero` no step makes a register or flag unspecified: only a reset in the other mode would. -/
theorem step_keeps_allSpecified {s t : State} (hzero : s.params.resetMode = .zero) (hs : s.allSpecified)
    (h : step s = .next t) : t.allSpecified := by
  obtain ⟨-, rfl⟩ | ⟨p, rest, -, ⟨-, rfl⟩ | ⟨-, i, -, rfl⟩ | ⟨-, e, -, rfl⟩⟩ := step_cases h
  · exact hs
  · exact State.applyReset_allSpecified hzero
  · exact afterInstr_allSpecified (s := s.consume rest) hs i
  · rw [State.raiseError_eq_withErr]
    exact hs

/-! ## The cycle and the reset -/

/-- The clock edge touches neither the pending operations nor the cycle's number. -/
theorem afterEdge_inputs_cycle (p : PortInput) (s : State) :
    (afterEdge p s).inputs = s.inputs ∧ (afterEdge p s).cycle = s.cycle := by
  unfold afterEdge
  split
  · exact ⟨rfl, rfl⟩
  · split
    next i _ =>
      obtain ⟨-, -, hcycle, hinputs⟩ := afterInstr_outside s i
      exact ⟨hinputs, hcycle⟩
    next e _ => exact ⟨s.raiseError_inputs e, s.raiseError_cycle e⟩

/-- A cycle with `rst = 1` resets, whatever its operation (R250, R252). -/
theorem step_of_rst {s : State} {p : PortInput} {rest : List PortInput} (hin : s.inputs = p :: rest)
    (hrst : p.rst = true) : step s = .next (s.consume rest).applyReset := by
  rw [step_of_inputs_cons hin, afterEdge, if_pos hrst]

/-- After a reset in mode `zero` every register holds 0, specified (R251). -/
theorem State.applyReset_holdsNat_zero {s : State} (hzero : s.params.resetMode = .zero) (r : Reg8) :
    HoldsNat s.applyReset r 0 := by
  rw [HoldsNat, State.applyReset_regs, State.applyReset_unwritten, hzero]
  cases r <;> exact ⟨rfl, rfl⟩

/-- After a reset in mode `zero` every flag is false, specified (R251). -/
theorem State.applyReset_holdsFlags {s : State} (hzero : s.params.resetMode = .zero) :
    s.applyReset.holdsFlags ⟨false, false, false, false⟩ :=
  ⟨rfl, by rw [State.applyReset_unwrittenFlags, hzero]; rfl⟩

section
variable {s : State} (hmode : s.params.resetMode = .unspecified) (site : ReadSite)
include hmode

/-- After a reset in mode `unspecified` every read of a register is a draw (R251). -/
theorem State.readReg_applyReset (r : Reg8) : s.applyReset.readReg site r = Config.regDraw s.cycle site r := by
  have hmark : s.applyReset.unwritten.get r = true := by
    rw [State.applyReset_unwritten, hmode]
    cases r <;> rfl
  rw [State.readReg, if_pos hmark, State.applyReset_cycle]

/-- After a reset in mode `unspecified` every read of a flag is a draw (R251). -/
theorem State.readFlag_applyReset (f : Flag) : s.applyReset.readFlag site f = Config.flagDraw s.cycle site f := by
  have hmark : s.applyReset.unwrittenFlags.get f = true := by
    rw [State.applyReset_unwrittenFlags, hmode]
    cases f <;> rfl
  rw [State.readFlag, if_pos hmark, State.applyReset_cycle]

end

/-! ## Writes in either order, and of one register twice (R21, R25, R255) -/

section
variable (s : State) (p : Pair) (v : Byte) (w : Word16)

/-- A register's write and that of a pair it is not in may be exchanged. -/
theorem State.writePair_writeReg_comm {r : Reg8} (hhi : r ≠ p.hi) (hlo : r ≠ p.lo) :
    (s.writeReg r v).writePair p w = (s.writePair p w).writeReg r v := by
  rw [State.writePair, State.writeReg_comm _ hhi, State.writeReg_comm _ hlo, State.writePair]

/-- Writes of two pairs may be exchanged. -/
theorem State.writePair_comm {q : Pair} (h : p ≠ q) (x : Word16) :
    (s.writePair p w).writePair q x = (s.writePair q x).writePair p w := by
  obtain ⟨⟨hhi, hhi'⟩, ⟨hlo, hlo'⟩⟩ := Pair.halves_ne_of_ne h
  calc (s.writePair p w).writePair q x
      = ((s.writeReg p.hi _).writePair q x).writeReg p.lo _ := State.writePair_writeReg_comm _ _ _ _ hlo hlo'
    _ = (s.writePair q x).writePair p w := by rw [State.writePair_writeReg_comm _ _ _ _ hhi hhi']; rfl

/-- A pair's write covers an earlier one of its high register. -/
theorem State.writePair_writeReg_hi : (s.writeReg p.hi v).writePair p w = s.writePair p w := by
  rw [State.writePair, State.writeReg_again, State.writePair]

/-- A pair's write covers an earlier one of its low register. -/
theorem State.writePair_writeReg_lo : (s.writeReg p.lo v).writePair p w = s.writePair p w := by
  rw [State.writePair, State.writeReg_comm _ p.hi_ne_lo.symm, State.writeReg_again, State.writePair]

/-- A write of a pair's high register replaces that half of the pair written before. -/
theorem State.writeReg_hi_writePair :
    (s.writePair p w).writeReg p.hi v = s.writePair p (v ++ w.extractLsb' 0 8) := by
  rw [State.writePair, State.writeReg_comm _ p.hi_ne_lo.symm, State.writeReg_again, State.writeReg_hi_lo]

/-- A write of a pair's low register replaces that half of the pair written before. -/
theorem State.writeReg_lo_writePair :
    (s.writePair p w).writeReg p.lo v = s.writePair p (w.extractLsb' 8 8 ++ v) := by
  rw [State.writePair, State.writeReg_again, State.writeReg_hi_lo]

end

/-- One instruction and then another answer the state after the second. -/
theorem execThen_eq_next (i j : Instr) (s : State) : execThen i j s = .next (afterInstr (afterInstr s i) j) := by
  rw [execThen, exec_eq_next]
  exact exec_eq_next j _

end Sys2Proof.Machine

namespace Sys2Proof.Proofs

open Sys2Proof.Machine Sys2Proof.Claims

/-- Settles O43: a step keeps the mode, and in mode `zero` it marks nothing. -/
theorem stepKeepsZeroModeSpecified : Obligations.StepKeepsZeroModeSpecified := by
  intro s t hs h hzero
  rw [stepKeepsTheParameters s t h] at hzero
  exact step_keeps_allSpecified hzero (hs hzero) h

/-- Settles O9: the step answers the reset of the state with the operation taken, and the mode says which marks that
leaves. -/
theorem resetWinsAndGivesTheResetValues : Obligations.ResetWinsAndGivesTheResetValues := by
  intro s p rest hin hrst
  refine ⟨_, step_of_rst hin hrst, rfl, rfl, rfl, fun hzero => ⟨?_, ?_⟩, fun hmode => ⟨?_, ?_⟩⟩
  · exact State.applyReset_holdsNat_zero hzero
  · exact (State.applyReset_holdsFlags hzero).flagsAre forcedZero_iff forcedZero_iff forcedZero_iff forcedZero_iff
  · exact State.readReg_applyReset (s := s.consume rest) hmode
  · exact State.readFlag_applyReset (s := s.consume rest) hmode

/-- Settles O31: each clause is an equation between two writes; a write of the flags and one of a register touch
different fields. -/
theorem initialisationOrderIsFree : Obligations.InitialisationOrderIsFree := by
  intro s
  simp only [execThen_eq_next, exec_eq_next, Host.Outcome.next.injEq]
  refine ⟨?_, ?_, ?_, ?_, ?_, ?_, ?_, ?_, ?_, ?_, ?_, ?_⟩
  · exact fun r q v w h => s.writeReg_comm h v w
  · exact fun r p v w hhi hlo => s.writePair_writeReg_comm p v w hhi hlo
  · exact fun p q v w h => s.writePair_comm p v h w
  · exact fun r v b => rfl
  · exact fun p v b => rfl
  · exact s.writeReg_again
  · exact s.writePair_again
  · exact s.writePair_writeReg_hi
  · exact s.writePair_writeReg_lo
  · exact s.writeReg_hi_writePair
  · exact s.writeReg_lo_writePair
  · exact fun a b => rfl

/-- Settles O7: the step answers the state after the clock edge, which leaves the remaining operations and the new
cycle's number alone. -/
theorem everyOperationCompletesInItsCycle : Obligations.EveryOperationCompletesInItsCycle :=
  fun s p rest hin => ⟨_, step_of_inputs_cons hin, afterEdge_inputs_cycle p (s.consume rest)⟩

/-- Settles O42: a clear latch with no information. -/
theorem resetLatchIsConsistent : Obligations.ResetLatchIsConsistent :=
  rfl

/-- Settles O44: the marks after reset are those of mode `zero`. -/
theorem resetIsSpecified : Obligations.ResetIsSpecified :=
  fun _ => ⟨rfl, rfl⟩

end Sys2Proof.Proofs
